-- ==== Sys2Proof/Word.lean ====
section
/-! DEFINITION. The word types of the core (rules R5, R6, R7 of spec/00_scope.md), and the type of a
register that may hold no value. Every value is an unsigned bit vector whose bit 0 is its least
significant bit (R6, R7). -/

namespace Sys2Proof

/-- A plaintext or ciphertext block, `BLOCK_BITS` = 64 (R5). -/
abbrev Block := BitVec 64

/-- A raw key, parity bits included, `KEY_BITS` = 64 (R5). -/
abbrev Key := BitVec 64

/-- A half-block, L or R, `HALF_BITS` = 32 (R5). -/
abbrev Half := BitVec 32

/-- A half of the permuted key, C or D, `HALFKEY_BITS` = 28 (R5). -/
abbrev HalfKey := BitVec 28

/-- The permuted key `C ++ D`, `CD_BITS` = 56 (R5). -/
abbrev PermutedKey := BitVec 56

/-- A round subkey, `SUBKEY_BITS` = 48 (R5). -/
abbrev Subkey := BitVec 48

/-- The 66-bit command word `op ++ data` of rule R61 (`OP_BITS` = 2 in R5). -/
abbrev CommandWord := BitVec 66

/-- A rotation amount: the rotators of rules R141 and R142 take n in {0, 1, 2}. -/
abbrev RotAmount := Fin 3

/-- The content of a `w`-bit register. `none` is the spec's own `⊥`: rule R10 says a model must represent
`⊥` as an absent value and not as zero, and R20 gives `⊥` as the reset value of KEY, L, R, C, D and DOUT
(log entry 1). -/
abbrev Reg (w : Nat) := Option (BitVec w)

end Sys2Proof
end

