-- ==== Sys2Proof/Config.lean ====
section
/-! DEFINITION. The implementation parameters of rule R5 that are numbers of steps. The widths of R5 are
the types of Word.lean. R5 leaves no parameter open, so no free value stands here. The one open platform
parameter, `PORT_MAP` (R47), belongs to a host with an address space, and this model has none (log entry
12). -/

namespace Sys2Proof

/-- `ROUNDS`: Feistel rounds per block (R5). -/
def Config.rounds : Nat := 16

/-- `STEPS_PER_BLOCK`: core steps from accepting a block to its result (R5, R167): one accept step, the
round steps and one final step. -/
def Config.stepsPerBlock : Nat := 1 + Config.rounds + 1

end Sys2Proof
end

