-- ==== Sys2Proof/Machine/Tables.lean ====
section
/-! DEFINITION. The constant tables of spec/40_tables.md (rules R80 to R96), constants of the datapath and
no state (R33, R41). The LSB-0 forms (`_L`) and the direct-index arrays (`SD_`) are the normative ones, and
the datapath uses only those; the FIPS forms stand beside them to be compared (R80, R87). -/

namespace Sys2Proof.Machine.Tables

/-- IP, initial permutation, 64 to 64 bits, FIPS form: output positions 1, 2, ... (rule R81). -/
def IP_FIPS : List Nat :=
  [ 58, 50, 42, 34, 26, 18, 10, 2,
    60, 52, 44, 36, 28, 20, 12, 4,
    62, 54, 46, 38, 30, 22, 14, 6,
    64, 56, 48, 40, 32, 24, 16, 8,
    57, 49, 41, 33, 25, 17, 9, 1,
    59, 51, 43, 35, 27, 19, 11, 3,
    61, 53, 45, 37, 29, 21, 13, 5,
    63, 55, 47, 39, 31, 23, 15, 7 ]

/-- IP, LSB-0 form: entry i is the source bit of output bit i (rule R81). -/
def IP_L : List Nat :=
  [ 57, 49, 41, 33, 25, 17, 9, 1,
    59, 51, 43, 35, 27, 19, 11, 3,
    61, 53, 45, 37, 29, 21, 13, 5,
    63, 55, 47, 39, 31, 23, 15, 7,
    56, 48, 40, 32, 24, 16, 8, 0,
    58, 50, 42, 34, 26, 18, 10, 2,
    60, 52, 44, 36, 28, 20, 12, 4,
    62, 54, 46, 38, 30, 22, 14, 6 ]

/-- FP, final permutation, 64 to 64 bits, FIPS form: output positions 1, 2, ... (rule R82). -/
def FP_FIPS : List Nat :=
  [ 40, 8, 48, 16, 56, 24, 64, 32,
    39, 7, 47, 15, 55, 23, 63, 31,
    38, 6, 46, 14, 54, 22, 62, 30,
    37, 5, 45, 13, 53, 21, 61, 29,
    36, 4, 44, 12, 52, 20, 60, 28,
    35, 3, 43, 11, 51, 19, 59, 27,
    34, 2, 42, 10, 50, 18, 58, 26,
    33, 1, 41, 9, 49, 17, 57, 25 ]

/-- FP, LSB-0 form: entry i is the source bit of output bit i (rule R82). -/
def FP_L : List Nat :=
  [ 39, 7, 47, 15, 55, 23, 63, 31,
    38, 6, 46, 14, 54, 22, 62, 30,
    37, 5, 45, 13, 53, 21, 61, 29,
    36, 4, 44, 12, 52, 20, 60, 28,
    35, 3, 43, 11, 51, 19, 59, 27,
    34, 2, 42, 10, 50, 18, 58, 26,
    33, 1, 41, 9, 49, 17, 57, 25,
    32, 0, 40, 8, 48, 16, 56, 24 ]

/-- E, expansion, 32 to 48 bits, FIPS form: output positions 1, 2, ... (rule R83). -/
def E_FIPS : List Nat :=
  [ 32, 1, 2, 3, 4, 5,
    4, 5, 6, 7, 8, 9,
    8, 9, 10, 11, 12, 13,
    12, 13, 14, 15, 16, 17,
    16, 17, 18, 19, 20, 21,
    20, 21, 22, 23, 24, 25,
    24, 25, 26, 27, 28, 29,
    28, 29, 30, 31, 32, 1 ]

/-- E, LSB-0 form: entry i is the source bit of output bit i (rule R83). -/
def E_L : List Nat :=
  [ 31, 0, 1, 2, 3, 4, 3, 4,
    5, 6, 7, 8, 7, 8, 9, 10,
    11, 12, 11, 12, 13, 14, 15, 16,
    15, 16, 17, 18, 19, 20, 19, 20,
    21, 22, 23, 24, 23, 24, 25, 26,
    27, 28, 27, 28, 29, 30, 31, 0 ]

/-- P, round permutation, 32 to 32 bits, FIPS form: output positions 1, 2, ... (rule R84). -/
def P_FIPS : List Nat :=
  [ 16, 7, 20, 21,
    29, 12, 28, 17,
    1, 15, 23, 26,
    5, 18, 31, 10,
    2, 8, 24, 14,
    32, 27, 3, 9,
    19, 13, 30, 6,
    22, 11, 4, 25 ]

/-- P, LSB-0 form: entry i is the source bit of output bit i (rule R84). -/
def P_L : List Nat :=
  [ 7, 28, 21, 10, 26, 2, 19, 13,
    23, 29, 5, 0, 18, 8, 24, 30,
    22, 1, 14, 27, 6, 9, 17, 31,
    15, 4, 20, 3, 11, 12, 25, 16 ]

/-- PC1, permuted choice 1, 64 to 56 bits, FIPS form: output positions 1, 2, ... (rule R85). -/
def PC1_FIPS : List Nat :=
  [ 57, 49, 41, 33, 25, 17, 9,
    1, 58, 50, 42, 34, 26, 18,
    10, 2, 59, 51, 43, 35, 27,
    19, 11, 3, 60, 52, 44, 36,
    63, 55, 47, 39, 31, 23, 15,
    7, 62, 54, 46, 38, 30, 22,
    14, 6, 61, 53, 45, 37, 29,
    21, 13, 5, 28, 20, 12, 4 ]

/-- PC1, LSB-0 form: entry i is the source bit of output bit i (rule R85). -/
def PC1_L : List Nat :=
  [ 60, 52, 44, 36, 59, 51, 43, 35,
    27, 19, 11, 3, 58, 50, 42, 34,
    26, 18, 10, 2, 57, 49, 41, 33,
    25, 17, 9, 1, 28, 20, 12, 4,
    61, 53, 45, 37, 29, 21, 13, 5,
    62, 54, 46, 38, 30, 22, 14, 6,
    63, 55, 47, 39, 31, 23, 15, 7 ]

/-- PC2, permuted choice 2, 56 to 48 bits, FIPS form: output positions 1, 2, ... (rule R86). -/
def PC2_FIPS : List Nat :=
  [ 14, 17, 11, 24, 1, 5,
    3, 28, 15, 6, 21, 10,
    23, 19, 12, 4, 26, 8,
    16, 7, 27, 20, 13, 2,
    41, 52, 31, 37, 47, 55,
    30, 40, 51, 45, 33, 48,
    44, 49, 39, 56, 34, 53,
    46, 42, 50, 36, 29, 32 ]

/-- PC2, LSB-0 form: entry i is the source bit of output bit i (rule R86). -/
def PC2_L : List Nat :=
  [ 24, 27, 20, 6, 14, 10, 3, 22,
    0, 17, 7, 12, 8, 23, 11, 5,
    16, 26, 1, 9, 19, 25, 4, 15,
    54, 43, 36, 29, 49, 40, 48, 30,
    52, 44, 37, 33, 46, 35, 50, 41,
    28, 53, 51, 55, 32, 45, 39, 42 ]

/-- S-box 1, FIPS form: rows 0 to 3 of 16 columns, one after another (rule R88). -/
def S_1 : List Nat :=
  [ 14, 4, 13, 1, 2, 15, 11, 8, 3, 10, 6, 12, 5, 9, 0, 7,
    0, 15, 7, 4, 14, 2, 13, 1, 10, 6, 12, 11, 9, 5, 3, 8,
    4, 1, 14, 8, 13, 6, 2, 11, 15, 12, 9, 7, 3, 10, 5, 0,
    15, 12, 8, 2, 4, 9, 1, 7, 5, 11, 3, 14, 10, 0, 6, 13 ]

/-- S-box 1, direct-index form: entry x is the nibble for the group x (rule R88). -/
def SD_1 : List Nat :=
  [ 14, 0, 4, 15, 13, 7, 1, 4, 2, 14, 15, 2, 11, 13, 8, 1,
    3, 10, 10, 6, 6, 12, 12, 11, 5, 9, 9, 5, 0, 3, 7, 8,
    4, 15, 1, 12, 14, 8, 8, 2, 13, 4, 6, 9, 2, 1, 11, 7,
    15, 5, 12, 11, 9, 3, 7, 14, 3, 10, 10, 0, 5, 6, 0, 13 ]

/-- S-box 2, FIPS form: rows 0 to 3 of 16 columns, one after another (rule R89). -/
def S_2 : List Nat :=
  [ 15, 1, 8, 14, 6, 11, 3, 4, 9, 7, 2, 13, 12, 0, 5, 10,
    3, 13, 4, 7, 15, 2, 8, 14, 12, 0, 1, 10, 6, 9, 11, 5,
    0, 14, 7, 11, 10, 4, 13, 1, 5, 8, 12, 6, 9, 3, 2, 15,
    13, 8, 10, 1, 3, 15, 4, 2, 11, 6, 7, 12, 0, 5, 14, 9 ]

/-- S-box 2, direct-index form: entry x is the nibble for the group x (rule R89). -/
def SD_2 : List Nat :=
  [ 15, 3, 1, 13, 8, 4, 14, 7, 6, 15, 11, 2, 3, 8, 4, 14,
    9, 12, 7, 0, 2, 1, 13, 10, 12, 6, 0, 9, 5, 11, 10, 5,
    0, 13, 14, 8, 7, 10, 11, 1, 10, 3, 4, 15, 13, 4, 1, 2,
    5, 11, 8, 6, 12, 7, 6, 12, 9, 0, 3, 5, 2, 14, 15, 9 ]

/-- S-box 3, FIPS form: rows 0 to 3 of 16 columns, one after another (rule R90). -/
def S_3 : List Nat :=
  [ 10, 0, 9, 14, 6, 3, 15, 5, 1, 13, 12, 7, 11, 4, 2, 8,
    13, 7, 0, 9, 3, 4, 6, 10, 2, 8, 5, 14, 12, 11, 15, 1,
    13, 6, 4, 9, 8, 15, 3, 0, 11, 1, 2, 12, 5, 10, 14, 7,
    1, 10, 13, 0, 6, 9, 8, 7, 4, 15, 14, 3, 11, 5, 2, 12 ]

/-- S-box 3, direct-index form: entry x is the nibble for the group x (rule R90). -/
def SD_3 : List Nat :=
  [ 10, 13, 0, 7, 9, 0, 14, 9, 6, 3, 3, 4, 15, 6, 5, 10,
    1, 2, 13, 8, 12, 5, 7, 14, 11, 12, 4, 11, 2, 15, 8, 1,
    13, 1, 6, 10, 4, 13, 9, 0, 8, 6, 15, 9, 3, 8, 0, 7,
    11, 4, 1, 15, 2, 14, 12, 3, 5, 11, 10, 5, 14, 2, 7, 12 ]

/-- S-box 4, FIPS form: rows 0 to 3 of 16 columns, one after another (rule R91). -/
def S_4 : List Nat :=
  [ 7, 13, 14, 3, 0, 6, 9, 10, 1, 2, 8, 5, 11, 12, 4, 15,
    13, 8, 11, 5, 6, 15, 0, 3, 4, 7, 2, 12, 1, 10, 14, 9,
    10, 6, 9, 0, 12, 11, 7, 13, 15, 1, 3, 14, 5, 2, 8, 4,
    3, 15, 0, 6, 10, 1, 13, 8, 9, 4, 5, 11, 12, 7, 2, 14 ]

/-- S-box 4, direct-index form: entry x is the nibble for the group x (rule R91). -/
def SD_4 : List Nat :=
  [ 7, 13, 13, 8, 14, 11, 3, 5, 0, 6, 6, 15, 9, 0, 10, 3,
    1, 4, 2, 7, 8, 2, 5, 12, 11, 1, 12, 10, 4, 14, 15, 9,
    10, 3, 6, 15, 9, 0, 0, 6, 12, 10, 11, 1, 7, 13, 13, 8,
    15, 9, 1, 4, 3, 5, 14, 11, 5, 12, 2, 7, 8, 2, 4, 14 ]

/-- S-box 5, FIPS form: rows 0 to 3 of 16 columns, one after another (rule R92). -/
def S_5 : List Nat :=
  [ 2, 12, 4, 1, 7, 10, 11, 6, 8, 5, 3, 15, 13, 0, 14, 9,
    14, 11, 2, 12, 4, 7, 13, 1, 5, 0, 15, 10, 3, 9, 8, 6,
    4, 2, 1, 11, 10, 13, 7, 8, 15, 9, 12, 5, 6, 3, 0, 14,
    11, 8, 12, 7, 1, 14, 2, 13, 6, 15, 0, 9, 10, 4, 5, 3 ]

/-- S-box 5, direct-index form: entry x is the nibble for the group x (rule R92). -/
def SD_5 : List Nat :=
  [ 2, 14, 12, 11, 4, 2, 1, 12, 7, 4, 10, 7, 11, 13, 6, 1,
    8, 5, 5, 0, 3, 15, 15, 10, 13, 3, 0, 9, 14, 8, 9, 6,
    4, 11, 2, 8, 1, 12, 11, 7, 10, 1, 13, 14, 7, 2, 8, 13,
    15, 6, 9, 15, 12, 0, 5, 9, 6, 10, 3, 4, 0, 5, 14, 3 ]

/-- S-box 6, FIPS form: rows 0 to 3 of 16 columns, one after another (rule R93). -/
def S_6 : List Nat :=
  [ 12, 1, 10, 15, 9, 2, 6, 8, 0, 13, 3, 4, 14, 7, 5, 11,
    10, 15, 4, 2, 7, 12, 9, 5, 6, 1, 13, 14, 0, 11, 3, 8,
    9, 14, 15, 5, 2, 8, 12, 3, 7, 0, 4, 10, 1, 13, 11, 6,
    4, 3, 2, 12, 9, 5, 15, 10, 11, 14, 1, 7, 6, 0, 8, 13 ]

/-- S-box 6, direct-index form: entry x is the nibble for the group x (rule R93). -/
def SD_6 : List Nat :=
  [ 12, 10, 1, 15, 10, 4, 15, 2, 9, 7, 2, 12, 6, 9, 8, 5,
    0, 6, 13, 1, 3, 13, 4, 14, 14, 0, 7, 11, 5, 3, 11, 8,
    9, 4, 14, 3, 15, 2, 5, 12, 2, 9, 8, 5, 12, 15, 3, 10,
    7, 11, 0, 14, 4, 1, 10, 7, 1, 6, 13, 0, 11, 8, 6, 13 ]

/-- S-box 7, FIPS form: rows 0 to 3 of 16 columns, one after another (rule R94). -/
def S_7 : List Nat :=
  [ 4, 11, 2, 14, 15, 0, 8, 13, 3, 12, 9, 7, 5, 10, 6, 1,
    13, 0, 11, 7, 4, 9, 1, 10, 14, 3, 5, 12, 2, 15, 8, 6,
    1, 4, 11, 13, 12, 3, 7, 14, 10, 15, 6, 8, 0, 5, 9, 2,
    6, 11, 13, 8, 1, 4, 10, 7, 9, 5, 0, 15, 14, 2, 3, 12 ]

/-- S-box 7, direct-index form: entry x is the nibble for the group x (rule R94). -/
def SD_7 : List Nat :=
  [ 4, 13, 11, 0, 2, 11, 14, 7, 15, 4, 0, 9, 8, 1, 13, 10,
    3, 14, 12, 3, 9, 5, 7, 12, 5, 2, 10, 15, 6, 8, 1, 6,
    1, 6, 4, 11, 11, 13, 13, 8, 12, 1, 3, 4, 7, 10, 14, 7,
    10, 9, 15, 5, 6, 0, 8, 15, 0, 14, 5, 2, 9, 3, 2, 12 ]

/-- S-box 8, FIPS form: rows 0 to 3 of 16 columns, one after another (rule R95). -/
def S_8 : List Nat :=
  [ 13, 2, 8, 4, 6, 15, 11, 1, 10, 9, 3, 14, 5, 0, 12, 7,
    1, 15, 13, 8, 10, 3, 7, 4, 12, 5, 6, 11, 0, 14, 9, 2,
    7, 11, 4, 1, 9, 12, 14, 2, 0, 6, 10, 13, 15, 3, 5, 8,
    2, 1, 14, 7, 4, 10, 8, 13, 15, 12, 9, 0, 3, 5, 6, 11 ]

/-- S-box 8, direct-index form: entry x is the nibble for the group x (rule R95). -/
def SD_8 : List Nat :=
  [ 13, 1, 2, 15, 8, 13, 4, 8, 6, 10, 15, 3, 11, 7, 1, 4,
    10, 12, 9, 5, 3, 6, 14, 11, 5, 0, 0, 14, 12, 9, 7, 2,
    7, 2, 11, 1, 4, 14, 1, 7, 9, 4, 12, 10, 14, 8, 2, 13,
    0, 15, 6, 12, 10, 9, 13, 0, 15, 3, 3, 5, 5, 6, 8, 11 ]

/-- The S-box array: lane i, for i = 0 to 7, is the source's S-box i, which is FIPS S(i+1) (R87). -/
def sboxes : List (List Nat) := [SD_1, SD_2, SD_3, SD_4, SD_5, SD_6, SD_7, SD_8]

/-- The FIPS forms of the S-boxes, in the same order (R87). -/
def sboxesFips : List (List Nat) := [S_1, S_2, S_3, S_4, S_5, S_6, S_7, S_8]

/-- `SHIFTS`: the left rotation of encryption round r (rule R96; conflict C1 chooses this schedule). -/
def shifts : List RotAmount := [1, 1, 2, 2, 2, 2, 2, 2, 1, 2, 2, 2, 2, 2, 2, 1]

/-- Rule R80: the LSB-0 form of a FIPS table over an M-bit input, `T_L[i] = M - T[N-1-i]`. -/
def lsbForm (inputWidth : Nat) (fips : List Nat) : List Nat := fips.reverse.map (inputWidth - ·)

/-- Rule R87: the direct-index array of a FIPS S-box, `SD[x] = S[row = x[5] ++ x[0], col = x[4:1]]`. -/
def directForm (fips : List Nat) : List Nat :=
  (List.range 64).map fun x => fips.getD (16 * (2 * (x / 32) + x % 2) + x / 2 % 16) 0

end Sys2Proof.Machine.Tables
end

