-- ==== Sys2Proof/Machine/Permute.lean ====
section
/-! DEFINITION. The bit-permutation primitive and its six instances (spec/41_permute.md, rules R100 to
R106). -/

namespace Sys2Proof.Machine

open Tables

/-- The primitive of rule R100: output bit i is input bit `table[i]`, for i from 0. The width `n` is the
table's length in each of the six instances (R102); a wider result would have zeros on top. -/
def permute (n : Nat) (table : List Nat) {m : Nat} (x : BitVec m) : BitVec n :=
  (BitVec.ofBoolListLE (table.map fun i => x.getLsbD i)).setWidth n

/-- `IP64` (R102). -/
def ip64 (x : BitVec 64) : BitVec 64 := permute 64 IP_L x

/-- `FP64` (R102). -/
def fp64 (x : BitVec 64) : BitVec 64 := permute 64 FP_L x

/-- `E48` (R102). -/
def e48 (x : Half) : BitVec 48 := permute 48 E_L x

/-- `P32` (R102). -/
def p32 (x : Half) : Half := permute 32 P_L x

/-- `PC1_56` (R102). -/
def pc1 (x : Key) : PermutedKey := permute 56 PC1_L x

/-- `PC2_48` (R102). -/
def pc2 (x : PermutedKey) : Subkey := permute 48 PC2_L x

end Sys2Proof.Machine
end

