-- ==== Sys2Proof/Syntax.lean ====
section
/-! DEFINITION. The commands of the core (one constructor per row of spec/opcode_table.json) and the lines
of a host program (rule R68 of spec/30_encoding.md). -/

namespace Sys2Proof

/-- The direction of a block: register MODE is 0 for ENCRYPT and 1 for DECRYPT (R25). -/
inductive Mode where
  | encrypt
  | decrypt
deriving DecidableEq, Repr

/-- A command. Its 64-bit operand is the `data` field of the command word (R61, R63). -/
inductive Instr where
  /-- NOP (R181). The operand is ignored. The term keeps it so that no bit of a word is lost (log entry
  10). -/
  | nop (data : BitVec 64)
  /-- LDKEY (R182): the operand is the raw key. -/
  | ldkey (key : Key)
  /-- ENC (R183): the operand is the plaintext block. -/
  | enc (block : Block)
  /-- DEC (R184): the operand is the ciphertext block. -/
  | dec (block : Block)
deriving DecidableEq, Repr

/-- One line of a host program (R68). -/
inductive Line where
  /-- `NOP`, `LDKEY`, `ENC` or `DEC` with its operand: one step that presents the command. -/
  | command (i : Instr)
  /-- `IDLE n`: n steps with `cmd_valid = 0`. -/
  | idle (n : Nat)
  /-- `RESET`: one step with `rst = 1` and `cmd_valid = 0`. -/
  | reset
  /-- `WAIT`: steps with `cmd_valid = 0` until `dout_valid = 1`. -/
  | wait
  /-- `READ`: the host samples `dout` at the start of the next step. -/
  | read
deriving DecidableEq, Repr

end Sys2Proof
end

