-- ==== Sys2Proof/Machine/KeySchedule.lean ====
section
/-! DEFINITION. The key schedule (spec/43_key_schedule.md, rules R140 to R150). -/

namespace Sys2Proof.Machine

/-- The high half `cd[55:28]` of the permuted key (R140). -/
def highHalf (cd : PermutedKey) : HalfKey := cd.extractLsb' 28 28

/-- The low half `cd[27:0]` of the permuted key (R140). -/
def lowHalf (cd : PermutedKey) : HalfKey := cd.extractLsb' 0 28

/-- The left rotator of rule R141: `v[27-n:0] ++ v[27:28-n]`. -/
def rotl28 (v : HalfKey) (n : RotAmount) : HalfKey :=
  match n with
  | 0 => v
  | 1 => v.extractLsb' 0 27 ++ v.extractLsb' 27 1
  | 2 => v.extractLsb' 0 26 ++ v.extractLsb' 26 2

/-- The right rotator of rule R142: `v[n-1:0] ++ v[27:n]`. -/
def rotr28 (v : HalfKey) (n : RotAmount) : HalfKey :=
  match n with
  | 0 => v
  | 1 => v.extractLsb' 0 1 ++ v.extractLsb' 1 27
  | 2 => v.extractLsb' 0 2 ++ v.extractLsb' 2 26

/-- `SHIFTS[r]` (R96), for r = 0 to 15. -/
def shiftAt (r : Nat) : RotAmount := Tables.shifts.getD r 0

/-- `RSHIFTS[r]`, for r = 0 to 15: 0 at round 0, then `SHIFTS[16 - r]` (R144). -/
def rshiftAt (r : Nat) : RotAmount := if r = 0 then 0 else shiftAt (16 - r)

/-- The rotation amount of a round, a function of MODE and ROUND alone (R150). -/
def amount (mode : Mode) (r : Nat) : RotAmount :=
  match mode with
  | .encrypt => shiftAt r
  | .decrypt => rshiftAt r

/-- The rotation of one half in round r: left to encrypt (R143), right to decrypt (R144). -/
def rotateHalf (mode : Mode) (r : Nat) (v : HalfKey) : HalfKey :=
  match mode with
  | .encrypt => rotl28 v (amount .encrypt r)
  | .decrypt => rotr28 v (amount .decrypt r)

/-- The subkey of the rotated halves, `PC2_48(C' ++ D')` (R145). -/
def subkeyOf (c d : HalfKey) : Subkey := pc2 (c ++ d)

/-- `CD[r]` of rule R146 as the pair (C, D): PC1 of the key, then r rotations. -/
def keyState (mode : Mode) (key : Key) : Nat → HalfKey × HalfKey
  | 0 => (highHalf (pc1 key), lowHalf (pc1 key))
  | r + 1 =>
    (rotateHalf mode r (keyState mode key r).1, rotateHalf mode r (keyState mode key r).2)

/-- `KS(key, mode)[r]`, the subkey that round r consumes (R146). -/
def subkey (key : Key) (mode : Mode) (r : Nat) : Subkey :=
  subkeyOf (keyState mode key (r + 1)).1 (keyState mode key (r + 1)).2

/-- `KS(key, mode)`, the sequence of 16 subkeys (R146). -/
def keySchedule (key : Key) (mode : Mode) : List Subkey := (List.range 16).map (subkey key mode)

end Sys2Proof.Machine
end

