-- ==== Sys2Proof/Machine/RoundFunction.lean ====
section
/-! DEFINITION. The round function F (spec/42_round_function.md, rules R120 to R127). -/

namespace Sys2Proof.Machine

/-- Group i of the 48-bit value, `x[47-6i : 42-6i]` for i = 0 to 7 (R123). -/
def group (x : BitVec 48) (i : Nat) : BitVec 6 := x.extractLsb' (42 - 6 * i) 6

/-- Lane i of the S-box array: the 6-bit group is a direct index into S-box i (R124). -/
def sbox (i : Nat) (g : BitVec 6) : BitVec 4 :=
  BitVec.ofNat 4 ((Tables.sboxes.getD i []).getD g.toNat 0)

/-- Nibble i of the S-box layer (R124). -/
def nibble (x : BitVec 48) (i : Nat) : BitVec 4 := sbox i (group x i)

/-- The S-box layer: eight lookups and the reassembly, nibble 0 the most significant (R124, R125). -/
def sboxLayer (x : BitVec 48) : Half :=
  nibble x 0 ++ nibble x 1 ++ nibble x 2 ++ nibble x 3 ++ nibble x 4 ++ nibble x 5 ++ nibble x 6 ++
    nibble x 7

/-- The round function of rule R120: expand (R121), mix in the subkey (R122), the S-box layer (R123 to
R125), permute (R126). -/
def roundF (r : Half) (k : Subkey) : Half := p32 (sboxLayer (e48 r ^^^ k))

end Sys2Proof.Machine
end

