-- ==== Sys2Proof/Machine/Feistel.lean ====
section
/-! DEFINITION. The Feistel engine with its IP and FP wrapper, as a function of a block
(spec/44_feistel_engine.md, rules R160 to R164). -/

namespace Sys2Proof.Machine

/-- The left half, the high 32 bits (R161). -/
def leftHalf (x : BitVec 64) : Half := x.extractLsb' 32 32

/-- The right half, the low 32 bits (R161). -/
def rightHalf (x : BitVec 64) : Half := x.extractLsb' 0 32

/-- One Feistel round on the pair (L, R): both new halves come from the old ones (R162). -/
def feistelRound (k : Subkey) (lr : Half × Half) : Half × Half := (lr.2, lr.1 ^^^ roundF lr.2 k)

/-- `(L_r, R_r)` of rule R160: the block through IP (R161), then r rounds (R162), each with its own subkey
in schedule order (R164). -/
def halvesAfter (mode : Mode) (key : Key) (block : Block) : Nat → Half × Half
  | 0 => (leftHalf (ip64 block), rightHalf (ip64 block))
  | r + 1 => feistelRound (subkey key mode r) (halvesAfter mode key block r)

/-- The terminal stage: swap the halves, concatenate, apply FP (R163). -/
def terminal (l r : Half) : Block := fp64 (r ++ l)

/-- The block function `DES(mode, key, block)` of rule R160. -/
def des (mode : Mode) (key : Key) (block : Block) : Block :=
  terminal (halvesAfter mode key block 16).1 (halvesAfter mode key block 16).2

end Sys2Proof.Machine
end

