-- ==== Sys2Proof/WellFormed.lean ====
section
/-! DEFINITION. The checks on terms. The core has no illegal command (R65), so `Instr.wellFormed` refuses
nothing; what can be ill formed is a number offered as a command word (R61) and a line of a host program
(R63, R68). -/

namespace Sys2Proof

/-- Rule R65: all four opcodes are defined and no operand value is reserved, so every term is a command of
the core. -/
def Instr.wellFormed : Instr → Bool
  | .nop _ => true
  | .ldkey _ => true
  | .enc _ => true
  | .dec _ => true

/-- Rule R63: a canonical NOP has `data = 0`. The other commands have one form each. -/
def Instr.canonical : Instr → Bool
  | .nop data => data == 0
  | .ldkey _ => true
  | .enc _ => true
  | .dec _ => true

/-- Rule R61: a command word has 66 bits. -/
def commandWordFits (w : Nat) : Bool := w < 2 ^ 66

/-- Rule R68: the line `NOP` takes no operand and stands for the word with `data = 0`; every other line is
a line of the syntax as it stands. -/
def Line.wellFormed : Line → Bool
  | .command i => i.canonical
  | .idle _ => true
  | .reset => true
  | .wait => true
  | .read => true

end Sys2Proof
end

