-- ==== Sys2Proof/Decode.lean ====
section
/-! DEFINITION. Decoding and encoding of command words: rules R61 to R65 and R67 of spec/30_encoding.md and
spec/opcode_table.json. -/

namespace Sys2Proof

/-- Command word bits 65:64 (R61). -/
def opField (w : CommandWord) : BitVec 2 := w.extractLsb' 64 2

/-- Command word bits 63:0 (R61), taken whole: no extension, scaling or shifting (R63, R64). -/
def dataField (w : CommandWord) : BitVec 64 := w.extractLsb' 0 64

/-- The decoder of rule R62: it selects the command by `op` alone. All four values of `op` are defined
(R65), so the last arm is `op = 11` and nothing else. -/
def decode (w : CommandWord) : Instr :=
  if opField w = 0b00#2 then .nop (dataField w)
  else if opField w = 0b01#2 then .ldkey (dataField w)
  else if opField w = 0b10#2 then .enc (dataField w)
  else .dec (dataField w)

/-- Why a number is no command word. -/
inductive DecodeError where
  /-- It has a bit above bit 65 (R61). -/
  | wordTooWide
deriving DecidableEq, Repr

/-- The decoder on any number: it rejects by name what has more than 66 bits (R61, R67). -/
def decodeNat (w : Nat) : Except DecodeError Instr :=
  if commandWordFits w then .ok (decode (BitVec.ofNat 66 w)) else .error .wordTooWide

/-- The instruction read from the low `nbits` bits of `w`, as spec/opcode_table.json numbers them: a row
is one 66-bit word whose bit 0 is its least significant bit. -/
def decodeTableWord (nbits w : Nat) : Option Instr :=
  match decodeNat (w % 2 ^ nbits) with
  | .ok i => some i
  | .error _ => none

/-- The opcode of a command (R62). -/
def Instr.op : Instr → BitVec 2
  | .nop _ => 0b00#2
  | .ldkey _ => 0b01#2
  | .enc _ => 0b10#2
  | .dec _ => 0b11#2

/-- The operand of a command (R61, R63). -/
def Instr.data : Instr → BitVec 64
  | .nop data => data
  | .ldkey key => key
  | .enc block => block
  | .dec block => block

/-- The command word of a command, `op ++ data` (R61). -/
def encode (i : Instr) : CommandWord := i.op ++ i.data

/-- One row of spec/opcode_table.json: the words `w` with `w & mask = pattern`. -/
structure OpcodeRow where
  mnemonic : String
  mask : CommandWord
  pattern : CommandWord
deriving DecidableEq, Repr

/-- spec/opcode_table.json, in its order (R62). -/
def opcodeTable : List OpcodeRow :=
  [ { mnemonic := "NOP", mask := 0x30000000000000000, pattern := 0x00000000000000000 },
    { mnemonic := "LDKEY", mask := 0x30000000000000000, pattern := 0x10000000000000000 },
    { mnemonic := "ENC", mask := 0x30000000000000000, pattern := 0x20000000000000000 },
    { mnemonic := "DEC", mask := 0x30000000000000000, pattern := 0x30000000000000000 } ]

/-- The word is one of the row's. -/
def OpcodeRow.covers (row : OpcodeRow) (w : CommandWord) : Bool := w &&& row.mask == row.pattern

/-- The table's name of a command. -/
def Instr.mnemonic : Instr → String
  | .nop _ => "NOP"
  | .ldkey _ => "LDKEY"
  | .enc _ => "ENC"
  | .dec _ => "DEC"

end Sys2Proof
end

