-- ==== Sys2Proof/Machine/State.lean ====
section
/-! DEFINITION. The machine's state as plain data: the registers of rule R20, the response of rule R66 that
the step just taken drove, and the host's side of the ports (rules R2, R60, R68). -/

namespace Sys2Proof.Machine

/-- The response codes of rule R66. -/
inductive Resp where
  /-- `00`: accepted, or no command was presented. -/
  | ok
  /-- `01`: refused, a block is in flight (R187). -/
  | busy
  /-- `10`: refused, ENC or DEC with no key (R188). -/
  | noKey
  /-- `11`: dropped, `rst = 1` in this step (R221). -/
  | rst
deriving DecidableEq, Repr

/-- The control registers of rule R20, those that R220 resets. -/
structure Control where
  /-- `KEY_VALID` (R22). -/
  keyValid : Bool
  /-- `MODE` (R25). -/
  mode : Mode
  /-- `ROUND`, 5 bits (R26). -/
  round : BitVec 5
  /-- `BUSY` (R27). -/
  busy : Bool
  /-- `DOUT_VALID` (R29). -/
  doutValid : Bool
deriving DecidableEq, Repr

/-- The levels the host drives on the input ports in one step (R60). `clk` is the step itself (R180). -/
structure Pins where
  rst : Bool
  cmdValid : Bool
  cmdOp : BitVec 2
  cmdData : BitVec 64
deriving DecidableEq, Repr

/-- One action of the host (log entry 3). -/
inductive HostAct where
  /-- One step with these levels on the input ports. -/
  | drive (pins : Pins)
  /-- Steps with `cmd_valid = 0` until `dout_valid = 1` (`WAIT` of R68). -/
  | wait
  /-- Sample `dout` at the start of the next step (`READ` of R68): no step of the core. -/
  | read
deriving DecidableEq, Repr

/-- The state of the core and of the host's ports. The core's registers are exactly those of rule R20: the
six datapath registers here and the five of `Control`. `none` in any of them is `⊥` (R10). -/
structure State where
  /-- `KEY` (R21). -/
  key : Reg 64
  /-- `L` (R23). -/
  l : Reg 32
  /-- `R` (R23). -/
  r : Reg 32
  /-- `C` (R24). -/
  c : Reg 28
  /-- `D` (R24). -/
  d : Reg 28
  /-- `DOUT` (R28). -/
  dout : Reg 64
  /-- The control registers. They are all `⊥` before the first reset step (R222), and no step makes them
  `⊥` again (log entry 2). -/
  ctl : Option Control
  /-- The level of `cmd_resp` in the step just taken (R66). No register of the core: the model's record of
  an output (log entry 5). -/
  resp : Resp
  /-- What the host does from here on, the next action first (log entry 3). -/
  script : List HostAct
  /-- The values the host's READs have sampled, the oldest first (R191). -/
  samples : List (Reg 64)
deriving DecidableEq, Repr

/-- Why a run is at fault. -/
inductive Fault where
  /-- Rule R222: a step with `rst = 0` from the power-on state, in which the control registers are `⊥`.
  Raised by every command and by a step with no command. Safe: the spec says the step function is not
  defined there and that the run is at fault. -/
  | stepBeforeReset
  /-- Rule R226: the host samples `dout` while `dout_valid` is not 1. Raised by the host's READ. Safe: the
  spec says that the run is at fault. -/
  | readWhileInvalid
deriving DecidableEq, Repr

/-- Why an instruction has no meaning in the model. -/
inductive Refusal where
  /-- The instruction has no meaning yet: raised by `exec`'s arm alone. Safe: the run stops. No arm of this
  model raises it. -/
  | notModelled (mnemonic : String)
deriving DecidableEq, Repr

/-- The control registers after reset (R20, R220). -/
def Control.reset : Control :=
  { keyValid := false, mode := .encrypt, round := 0, busy := false, doutValid := false }

/-- The state before the first reset step (R222): every register of R20 is `⊥`, the control registers
included. The response is no register and nothing reads it (log entry 5). -/
def State.powerOn : State :=
  { key := none, l := none, r := none, c := none, d := none, dout := none, ctl := none,
    resp := .ok, script := [], samples := [] }

/-- The machine right after reset (R20, R220): the control registers at 0 and the datapath registers at
`⊥`, the value the spec states for them. The reset step presented no command, so `cmd_resp` was `00`
(R180). The host has nothing lined up (log entry 8). -/
def State.reset : State :=
  { key := none, l := none, r := none, c := none, d := none, dout := none, ctl := some Control.reset,
    resp := .ok, script := [], samples := [] }

end Sys2Proof.Machine
end

