-- ==== Sys2Proof/Machine/Operands.lean ====
section
/-! DEFINITION. Operand forms: the command port (rules R60, R61, R63) and the host's bytes (rule R42). -/

namespace Sys2Proof.Machine

/-- The input ports in a step in which the host presents no command and no reset. `cmd_op` and `cmd_data`
are ignored then (R60). -/
def Pins.quiet : Pins := { rst := false, cmdValid := false, cmdOp := 0, cmdData := 0 }

/-- The input ports in a reset step with no command (`RESET` of R68). -/
def Pins.reset : Pins := { rst := true, cmdValid := false, cmdOp := 0, cmdData := 0 }

/-- The input ports in a step that presents the command word whole: `op` on `cmd_op` and `data` on
`cmd_data` (R60, R61). -/
def Pins.present (w : CommandWord) : Pins :=
  { rst := false, cmdValid := true, cmdOp := opField w, cmdData := dataField w }

/-- The command word on the ports, `cmd_op ++ cmd_data` (R60, R61). -/
def Pins.word (p : Pins) : CommandWord := p.cmdOp ++ p.cmdData

/-- A 64-bit word formed from 8 bytes: byte 0 is the most significant (R42). It is one mapping for keys,
plaintext and ciphertext, in both directions. -/
def wordOfBytes (b : Vector (BitVec 8) 8) : BitVec 64 :=
  b[0] ++ b[1] ++ b[2] ++ b[3] ++ b[4] ++ b[5] ++ b[6] ++ b[7]

/-- Byte k of a word, `word[63-8k : 56-8k]`, for k = 0 to 7 (R42). -/
def byteOfWord (w : BitVec 64) (k : Nat) : BitVec 8 := w.extractLsb' (56 - 8 * k) 8

/-- The 8 bytes of a word (R42). -/
def bytesOfWord (w : BitVec 64) : Vector (BitVec 8) 8 :=
  #v[byteOfWord w 0, byteOfWord w 1, byteOfWord w 2, byteOfWord w 3, byteOfWord w 4, byteOfWord w 5,
    byteOfWord w 6, byteOfWord w 7]

end Sys2Proof.Machine
end

