-- ==== Sys2Proof/Machine/Flags.lean ====
section
/-! DEFINITION. The output ports (rules R60, R30, R66, R189) and the response of a step (rules R180, R201,
R204). The core has no flags or condition codes (R32): these are its only single-bit outputs. -/

namespace Sys2Proof.Machine

/-- A one-bit register on a port. -/
def bit (b : Bool) : BitVec 1 := BitVec.ofBool b

/-- `MODE` as its register holds it: 0 = ENCRYPT, 1 = DECRYPT (R25). -/
def modeBit : Mode → BitVec 1
  | .encrypt => 0
  | .decrypt => 1

/-- The level of `cmd_resp` for a response (R66). -/
def Resp.code : Resp → BitVec 2
  | .ok => 0b00#2
  | .busy => 0b01#2
  | .noKey => 0b10#2
  | .rst => 0b11#2

/-- The status word of rule R30, `zext_16(ROUND ++ MODE ++ KEY_VALID ++ DOUT_VALID ++ BUSY)`. -/
def Control.status (ctl : Control) : BitVec 16 :=
  (ctl.round ++ modeBit ctl.mode ++ bit ctl.keyValid ++ bit ctl.doutValid ++ bit ctl.busy).setWidth 16

/-- Port `status` (R30, R60). It shows any value before the first reset (U2 of
spec/93_implementation_defined.md): `none`. -/
def State.status (s : State) : Option (BitVec 16) := s.ctl.map Control.status

/-- Port `dout`, the DOUT register at all times (R28). -/
def State.doutPort (s : State) : Reg 64 := s.dout

/-- Port `dout_valid`, the DOUT_VALID register (R29), `none` before the first reset. -/
def State.doutValidPort (s : State) : Option (BitVec 1) := s.ctl.map fun ctl => bit ctl.doutValid

/-- Port `cmd_resp` in a step, from the inputs and the state at its start (R66, R189), by the priorities of
rule R204. `none` where the step is not defined (R222). -/
def responsePort (p : Pins) (ctl : Option Control) : Option Resp :=
  if p.rst then some (if p.cmdValid then .rst else .ok)
  else
    match ctl with
    | none => none
    | some ctl =>
      if !p.cmdValid then some .ok
      else
        match decode p.word with
        | .nop _ => some .ok
        | .ldkey _ => some (if ctl.busy then .busy else .ok)
        | .enc _ => some (if ctl.busy then .busy else if ctl.keyValid then .ok else .noKey)
        | .dec _ => some (if ctl.busy then .busy else if ctl.keyValid then .ok else .noKey)

/-- A block operation is complete (R191). -/
def Control.complete (ctl : Control) : Bool := !ctl.busy && ctl.doutValid

end Sys2Proof.Machine
end

