-- ==== Sys2Proof/Machine/Ops.lean ====
section
/-! DEFINITION. The named operations over the registers that the commands share: a computation over `⊥`
(R10), the response (R66), reset (R220), the accept step (R183, R184), the engine's internal steps (R185,
R186) and the choice that rule R180 makes for every command. The core raises no exception (R200) and has no
trap entry or return (R205, R206); a refusal is a response and nothing else (R201). -/

namespace Sys2Proof.Machine

/-- A computation with two register operands. "A computation reading ⊥ yields ⊥" (R10). With one operand
it is `Option.map`. -/
def Reg.map2 {a b c : Nat} (f : BitVec a → BitVec b → BitVec c) : Reg a → Reg b → Reg c
  | some x, some y => some (f x y)
  | _, _ => none

/-- `respond(code)` of rules R8 and R66: the level of `cmd_resp` in this step. No register changes. -/
def State.respond (s : State) (resp : Resp) : State := { s with resp := resp }

/-- The control registers of a state that has been reset. On the power-on state the step function is not
defined and the run is at fault (R222). -/
def withControl (s : State) (k : Control → State) : Host.Outcome State Fault Refusal :=
  match s.ctl with
  | none => .fault .stepBeforeReset
  | some ctl => .next (k ctl)

/-- The reset step of rules R220 and R221: the control registers take their reset values and the datapath
registers are `⊥` afterwards. A command presented in this step is dropped with response RST. -/
def resetStep (cmdValid : Bool) (s : State) : State :=
  { s with key := none, l := none, r := none, c := none, d := none, dout := none,
           ctl := some Control.reset, resp := if cmdValid then .rst else .ok }

/-- The accept step of rules R183 and R184: the block through IP into L and R, KEY through PC1 into C and
D, and the control registers for a block in flight. -/
def accept (mode : Mode) (block : Block) (ctl : Control) (s : State) : State :=
  { s with l := some (leftHalf (ip64 block)), r := some (rightHalf (ip64 block)),
           c := s.key.map fun k => highHalf (pc1 k), d := s.key.map fun k => lowHalf (pc1 k),
           ctl := some { ctl with mode := mode, round := 0, busy := true, doutValid := false } }

/-- The round step of rule R185. Every right side reads the registers as they stood at the start (R8). -/
def roundStep (ctl : Control) (s : State) : State :=
  let c' := s.c.map (rotateHalf ctl.mode ctl.round.toNat)
  let d' := s.d.map (rotateHalf ctl.mode ctl.round.toNat)
  let k := Reg.map2 subkeyOf c' d'
  let f := Reg.map2 roundF s.r k
  { s with l := s.r, r := Reg.map2 (· ^^^ ·) s.l f, c := c', d := d',
           ctl := some { ctl with round := ctl.round + 1 } }

/-- The final step of rule R186: DOUT takes the swapped halves through FP. -/
def finalStep (ctl : Control) (s : State) : State :=
  { s with dout := Reg.map2 terminal s.l s.r,
           ctl := some { ctl with doutValid := true, busy := false, round := 0 } }

/-- The engine's own step while `BUSY = 1` (R180): a round step while `ROUND < 16`, else the final step. -/
def engineStep (ctl : Control) (s : State) : State :=
  if ctl.round.toNat < Config.rounds then roundStep ctl s else finalStep ctl s

/-- The branch of rule R180 for a step with `rst = 0`: while a block is in flight the engine advances,
whatever the port shows, and the command gets the response `whenBusy`; else the command's own effect
`idle` takes place. -/
def commandStep (whenBusy : Resp) (idle : Control → State) (s : State) :
    Host.Outcome State Fault Refusal :=
  withControl s fun ctl => if ctl.busy then (engineStep ctl s).respond whenBusy else idle ctl

/-- The shared form of ENC and DEC (R183, R184): refused with BUSY (R187) or NOKEY (R188), else the accept
step. -/
def blockCommand (mode : Mode) (block : Block) (s : State) : Host.Outcome State Fault Refusal :=
  commandStep .busy
    (fun ctl => if ctl.keyValid then (accept mode block ctl s).respond .ok else s.respond .noKey) s

/-- A step with `rst = 0` and no command (R180): the engine advances if a block is in flight, else nothing
changes. `cmd_resp` is `00` (R66). -/
def idleStep (s : State) : Host.Outcome State Fault Refusal :=
  commandStep .ok (fun _ => s.respond .ok) s

end Sys2Proof.Machine
end

