-- ==== Sys2Proof/Machine/Commands.lean ====
section
/-! DEFINITION. The meanings of the four commands (spec/45_commands.md, rules R181 to R184, R187, R188): what
one step with `rst = 0` and this command on the port does, the engine's own step included (R180). -/

namespace Sys2Proof.Machine

/-- NOP (R181): response OK, busy or not; no register is written because of it. The operand is ignored. -/
def execNop (_data : BitVec 64) (s : State) : Host.Outcome State Fault Refusal :=
  commandStep .ok (fun _ => s.respond .ok) s

/-- LDKEY (R182): KEY takes the operand, all 64 bits, and KEY_VALID is 1. Refused with BUSY while a block is
in flight (R187). -/
def execLdkey (key : Key) (s : State) : Host.Outcome State Fault Refusal :=
  commandStep .busy
    (fun ctl => ({ s with key := some key, ctl := some { ctl with keyValid := true } }).respond .ok) s

/-- ENC (R183): the accept step with MODE 0. -/
def execEnc (block : Block) (s : State) : Host.Outcome State Fault Refusal :=
  blockCommand .encrypt block s

/-- DEC (R184): the accept step with MODE 1. -/
def execDec (block : Block) (s : State) : Host.Outcome State Fault Refusal :=
  blockCommand .decrypt block s

end Sys2Proof.Machine
end

