-- ==== Sys2Proof/Machine/ClockEdge.lean ====
section
/-! DEFINITION. One step of the core at a rising clock edge (rule R180 of spec/45_commands.md), and the
host's turn before it (rule R68 of spec/30_encoding.md). -/

namespace Sys2Proof.Machine

/-- One core step with these levels on the input ports (R180, R204): reset first, then the command that the
port presents, else a step with no command. -/
def clockEdge (p : Pins) (s : State) : Host.Outcome State Fault Refusal :=
  if p.rst then .next (resetStep p.cmdValid s)
  else if p.cmdValid then exec (decode p.word) s
  else idleStep s

/-- What the host does at the start of a step: the port levels it drives, the actions it has left and the
values it has sampled. -/
structure HostTurn where
  pins : Pins
  script : List HostAct
  samples : List (Reg 64)
deriving DecidableEq, Repr

/-- The host's turn at the start of a step (R68), from the ports `dout_valid` and `dout` and the values
sampled so far. A READ samples `dout` and takes no step, and is a fault where `dout_valid` is not 1 (R226). A
WAIT holds the host, with no command on the port, until `dout_valid = 1`. With nothing left to do the host
presents no command (log entry 4). -/
def hostTurn (doutValid : Bool) (dout : Reg 64) (samples : List (Reg 64)) :
    List HostAct → Except Fault HostTurn
  | [] => .ok { pins := Pins.quiet, script := [], samples := samples }
  | .drive pins :: rest => .ok { pins := pins, script := rest, samples := samples }
  | .wait :: rest =>
    if doutValid then hostTurn doutValid dout samples rest
    else .ok { pins := Pins.quiet, script := .wait :: rest, samples := samples }
  | .read :: rest =>
    if doutValid then hostTurn doutValid dout (samples ++ [dout]) rest
    else .error .readWhileInvalid

/-- `dout_valid` is 1 (R29). Before the first reset it shows no known value (R222), which is not 1 (log
entry 6). -/
def State.showsResult (s : State) : Bool :=
  match s.ctl with
  | none => false
  | some ctl => ctl.doutValid

/-- The state after the host's turn: only the host's own fields change (R46: sampling has no side
effect). -/
def State.afterTurn (s : State) (t : HostTurn) : State :=
  { s with script := t.script, samples := t.samples }

/-- The samples at the end of a program (R191), from the ports and the actions left: the READs that stand
after the last step fall at the start of the step after it and take none. `none` where the program still has
a step to take. -/
def lastSamples (doutValid : Bool) (dout : Reg 64) (samples : List (Reg 64)) :
    List HostAct → Except Fault (Option (List (Reg 64)))
  | [] => .ok (some samples)
  | .drive _ :: _ => .ok none
  | .wait :: rest => if doutValid then lastSamples doutValid dout samples rest else .ok none
  | .read :: rest =>
    if doutValid then lastSamples doutValid dout (samples ++ [dout]) rest
    else .error .readWhileInvalid

/-- The end state of a program (R191): the core's state at the start of the step after the last line,
together with the values its READ lines sampled. -/
def State.programEnd (s : State) : Except Fault (Option State) :=
  (lastSamples s.showsResult s.dout s.samples s.script).map
    (Option.map fun samples => { s with script := [], samples := samples })

/-- The host's action that presents the command word whole in one step (R61). -/
def HostAct.present (w : CommandWord) : HostAct := .drive (Pins.present w)

end Sys2Proof.Machine
end

