-- ==== Sys2Proof/Machine/Step.lean ====
section
/-! DEFINITION. The step of the machine: the host's turn, then one core step (rules R68, R180). -/

namespace Sys2Proof.Machine

/-- One step: the host's turn at its start (R68), then one rising clock edge with the levels the host drives
(R180). -/
def step (s : State) : Host.Outcome State Fault Refusal :=
  match hostTurn s.showsResult s.dout s.samples s.script with
  | .error e => .fault e
  | .ok t => clockEdge t.pins (s.afterTurn t)

/-- The state in which the host's next action presents the command word whose low `nbits` bits are `w`
(log entry 7). Nothing else changes. -/
def State.withFetchWord (s : State) (nbits w : Nat) : State :=
  { s with script := HostAct.present (BitVec.ofNat 66 (w % 2 ^ nbits)) :: s.script }

end Sys2Proof.Machine
end

