-- ==== Sys2Proof/Machine/Asm.lean ====
section
/-! DEFINITION. Host programs: the expansion of each line into port levels, and the assembler syntax (rule
R68 of spec/30_encoding.md). The points that R68 leaves open stand in log entry 11. -/

namespace Sys2Proof.Machine

/-- The host's actions for one line, one per step of the core; READ takes none (R68). -/
def lineActions : Line → List HostAct
  | .command i => [.drive (Pins.present (encode i))]
  | .idle n => List.replicate n (.drive Pins.quiet)
  | .reset => [.drive Pins.reset]
  | .wait => [.wait]
  | .read => [.read]

/-- The host's actions for a program, its lines in order (R68). -/
def programActions (program : List Line) : List HostAct := program.flatMap lineActions

/-- The program given to the host; the core's registers stay as they are (log entry 7). -/
def State.withProgram (s : State) (program : List Line) : State :=
  { s with script := programActions program }

/-- Why the assembler refuses a line. -/
inductive AsmError where
  /-- The first word is none of R68's line names. -/
  | unknownMnemonic
  /-- No operand on LDKEY, ENC or DEC (R68), or no count on IDLE. -/
  | missingOperand
  /-- An operand on NOP (R68), or more operands than the line takes. -/
  | unexpectedOperand
  /-- An operand of more than 16 digits (R68). -/
  | operandTooLong
  /-- An operand that is not `0x` and hexadecimal digits (R68), or a count that is no decimal number. -/
  | malformedOperand
deriving DecidableEq, Repr

/-- A run of digit characters with consecutive codes: its first character, how many there are, and the value
of the first. -/
abbrev DigitRun := Char × Nat × Nat

/-- The value of a character in a run of digits. -/
def valueInRun (code : Nat) : DigitRun → Option Nat
  | (first, count, value) =>
    let offset := code - first.toNat
    if first.toNat ≤ code ∧ offset < count then some (value + offset) else none

/-- The ten digits of either base. -/
def decimalRun : DigitRun := ('0', 10, 0)

/-- The digits of a count. -/
def decimalDigit (c : Char) : Option Nat := valueInRun c.toNat decimalRun

/-- The digits of an operand (R68), the letters in either case (log entry 11). -/
def hexDigit (c : Char) : Option Nat :=
  [decimalRun, ('A', 6, 10), ('a', 6, 10)].findSome? (valueInRun c.toNat)

/-- The number that the digits write in a base, the most significant digit first, after `value`. -/
def digitsValue (base : Nat) (digit : Char → Option Nat) (value : Nat) : List Char → Option Nat
  | [] => some value
  | c :: cs =>
    match digit c with
    | none => none
    | some v => digitsValue base digit (value * base + v) cs

/-- An operand: the prefix `0x` and 1 to 16 hexadecimal digits, zero-padded on the left to 64 bits (R68). -/
def parseOperand : List Char → Except AsmError (BitVec 64)
  | '0' :: 'x' :: digits =>
    if digits.length = 0 then .error .malformedOperand
    else if 16 < digits.length then .error .operandTooLong
    else
      match digitsValue 16 hexDigit 0 digits with
      | none => .error .malformedOperand
      | some v => .ok (BitVec.ofNat 64 v)
  | _ => .error .malformedOperand

/-- The count of an IDLE line, a decimal number. -/
def parseCount (digits : List Char) : Except AsmError Nat :=
  if digits.length = 0 then .error .malformedOperand
  else
    match digitsValue 10 decimalDigit 0 digits with
    | none => .error .malformedOperand
    | some v => .ok v

/-- A command line with one operand. -/
def parseCommand (command : BitVec 64 → Instr) : List (List Char) → Except AsmError Line
  | [] => .error .missingOperand
  | [operand] => (parseOperand operand).map fun v => .command (command v)
  | _ => .error .unexpectedOperand

/-- A line with no operand. -/
def parseBare (line : Line) : List (List Char) → Except AsmError Line
  | [] => .ok line
  | _ => .error .unexpectedOperand

/-- A line from its name in capitals and its operands (R68). -/
def parseNamed (name : List Char) (operands : List (List Char)) : Except AsmError Line :=
  if name = ['N', 'O', 'P'] then parseBare (.command (.nop 0)) operands
  else if name = ['L', 'D', 'K', 'E', 'Y'] then parseCommand .ldkey operands
  else if name = ['E', 'N', 'C'] then parseCommand .enc operands
  else if name = ['D', 'E', 'C'] then parseCommand .dec operands
  else if name = ['I', 'D', 'L', 'E'] then
    match operands with
    | [] => .error .missingOperand
    | [count] => (parseCount count).map .idle
    | _ => .error .unexpectedOperand
  else if name = ['R', 'E', 'S', 'E', 'T'] then parseBare .reset operands
  else if name = ['W', 'A', 'I', 'T'] then parseBare .wait operands
  else if name = ['R', 'E', 'A', 'D'] then parseBare .read operands
  else .error .unknownMnemonic

/-- The words of a line, `word` being the one begun, its characters reversed. -/
def splitWords (word : List Char) : List Char → List (List Char)
  | [] => if word.isEmpty then [] else [word.reverse]
  | c :: cs =>
    if c.isWhitespace then
      if word.isEmpty then splitWords [] cs else word.reverse :: splitWords [] cs
    else splitWords (c :: word) cs

/-- A line of text: the comment from the first semicolon on is dropped and the name is read in either case
(R68). Text with no word in it is no line. -/
def parseLine (text : List Char) : Except AsmError (Option Line) :=
  match splitWords [] (text.takeWhile (· != ';')) with
  | [] => .ok none
  | name :: operands => (parseNamed (name.map Char.toUpper) operands).map some

/-- The lines of a text, `line` being the one begun, its characters reversed. -/
def splitLines (line : List Char) : List Char → List (List Char)
  | [] => [line.reverse]
  | c :: cs => if c = '\n' then line.reverse :: splitLines [] cs else splitLines (c :: line) cs

/-- The lines of a program, from lines of text; the first refused line refuses the program. -/
def parseLines : List (List Char) → Except AsmError (List Line)
  | [] => .ok []
  | text :: rest =>
    match parseLine text, parseLines rest with
    | .error e, _ => .error e
    | _, .error e => .error e
    | .ok none, .ok lines => .ok lines
    | .ok (some line), .ok lines => .ok (line :: lines)

/-- The assembler of rule R68, from the text of a program to its lines. -/
def parseProgram (text : List Char) : Except AsmError (List Line) := parseLines (splitLines [] text)

end Sys2Proof.Machine
end

