-- ==== Sys2Proof/Safety.lean ====
section
/-! DEFINITION. What counts as a good state and a good run, in the terms the statements use: the invariants
of rule R35, a run with no fault (R222, R226), and inputs without a reset (R191). -/

namespace Sys2Proof.Machine

/-- The registers of a block in flight: `C ++ D` is the key-schedule state after ROUND rotations and `L, R`
are the half-blocks after ROUND rounds, for the latched KEY and MODE and some block (R35 item 5). -/
structure InFlight (ctl : Control) (key : Key) (block : Block) (s : State) : Prop where
  key_latched : s.key = some key
  c_rotated : s.c = some (keyState ctl.mode key ctl.round.toNat).1
  d_rotated : s.d = some (keyState ctl.mode key ctl.round.toNat).2
  l_halves : s.l = some (halvesAfter ctl.mode key block ctl.round.toNat).1
  r_halves : s.r = some (halvesAfter ctl.mode key block ctl.round.toNat).2

/-- The invariants of rule R35, with those of R22 and R29, in a state whose control registers are `ctl`. -/
structure RegistersOk (ctl : Control) (s : State) : Prop where
  /-- R35 item 1. -/
  round_le : ctl.round.toNat ≤ 16
  /-- R35 item 2. -/
  idle_round : ctl.busy = false → ctl.round = 0
  /-- R22. -/
  key_known : ctl.keyValid = true → s.key ≠ none
  /-- R35 item 3. -/
  busy_key : ctl.busy = true → ctl.keyValid = true
  /-- R35 item 3. -/
  busy_known : ctl.busy = true → s.l ≠ none ∧ s.r ≠ none ∧ s.c ≠ none ∧ s.d ≠ none
  /-- R35 item 4. -/
  result_idle : ctl.doutValid = true → ctl.busy = false
  /-- R35 item 4. -/
  result_known : ctl.doutValid = true → s.dout ≠ none
  /-- R35 item 5. -/
  in_flight : ctl.busy = true → ∃ key block, InFlight ctl key block s

/-- The invariant of the core: rule R35 holds as soon as the core has been reset. In the power-on state the
control registers are `⊥` (R222) and nothing is claimed. -/
def CoreInvariant (s : State) : Prop := ∀ ctl, s.ctl = some ctl → RegistersOk ctl s

/-- The core has been reset since power-on (R222, R223 item 1). -/
def Booted (s : State) : Prop := s.ctl ≠ none

/-- Port levels with no reset. -/
def NoReset (ports : List Pins) : Prop := ∀ p ∈ ports, p.rst = false

/-- The command that starts a block in a mode: ENC or DEC (R62). -/
def blockInstr : Mode → Block → Instr
  | .encrypt, block => .enc block
  | .decrypt, block => .dec block

/-- The port presents ENC or DEC and the core accepts it: no block is in flight and a key is loaded (R183,
R184). -/
def Accepted (p : Pins) (ctl : Control) : Prop :=
  p.cmdValid = true ∧ (p.cmdOp = 0b10#2 ∨ p.cmdOp = 0b11#2) ∧ ctl.busy = false ∧ ctl.keyValid = true

/-- The port presents LDKEY and the core accepts it (R182). -/
def KeyAccepted (p : Pins) (ctl : Control) : Prop :=
  p.cmdValid = true ∧ p.cmdOp = 0b01#2 ∧ ctl.busy = false

/-- A run of `n` steps that meets no fault. -/
def SafeRun (n : Nat) (s : State) : Prop := ∃ t, Host.Core.run Sys2Proof.core n s = .next t

/-- Two states that a host cannot tell apart: the control registers, the response, the host's own fields,
and every datapath register in the conditions under which rule R220 lets it be used (KEY behind KEY_VALID,
L, R, C and D while a block is in flight, DOUT behind DOUT_VALID). -/
structure SameWhereUsed (s t : State) : Prop where
  ctl_eq : s.ctl = t.ctl
  resp_eq : s.resp = t.resp
  script_eq : s.script = t.script
  samples_eq : s.samples = t.samples
  key_eq : ∀ ctl, s.ctl = some ctl → ctl.keyValid = true → s.key = t.key
  block_eq : ∀ ctl, s.ctl = some ctl → ctl.busy = true →
    s.l = t.l ∧ s.r = t.r ∧ s.c = t.c ∧ s.d = t.d
  dout_eq : ∀ ctl, s.ctl = some ctl → ctl.doutValid = true → s.dout = t.dout

/-- The parity bits of a key, the least significant bit of each byte: bits 0, 8, ..., 56 (R104). -/
def parityBits : Key := 0x0101010101010101

/-- Two states that differ at most in the parity bits of KEY: the two keys agree in every other bit, or both
are absent (R104). -/
structure SameButParity (s t : State) : Prop where
  key_eq : (s.key.map fun k => k &&& ~~~parityBits) = t.key.map fun k => k &&& ~~~parityBits
  rest_eq : { s with key := t.key } = t

end Sys2Proof.Machine
end

