-- ==== Sys2Proof/Certificates/Slice0/Obligations.lean ====
section
/-! DEFINITION. The statements for the provers. Each formalises the rules that its docstring names. Where a
statement speaks of `clockEdge`, it is about one core step with given port levels (R180); the step of the
machine reaches it through the statements about `step`. -/

open Sys2Proof Sys2Proof.Machine

/-! ## Encoding (spec/30_encoding.md) -/

/-- Rule R62: the decoder selects the command by `op` alone; bit 65 selects a block operation and bit 64 is
then its mode; exactly one row of the opcode table covers each word, the row of the decoded command. -/
def Obligations.OpcodeMapSelectsByOpAlone : Prop :=
  ∀ w : CommandWord,
    (w.extractLsb' 64 2 = 0b00#2 → decode w = .nop (w.extractLsb' 0 64)) ∧
    (w.extractLsb' 64 2 = 0b01#2 → decode w = .ldkey (w.extractLsb' 0 64)) ∧
    (w.extractLsb' 64 2 = 0b10#2 → decode w = .enc (w.extractLsb' 0 64)) ∧
    (w.extractLsb' 64 2 = 0b11#2 → decode w = .dec (w.extractLsb' 0 64)) ∧
    (w.getLsbD 65 = true →
      decode w = blockInstr (if w.getLsbD 64 then .decrypt else .encrypt) (w.extractLsb' 0 64)) ∧
    (opcodeTable.filter fun row => row.covers w).map (fun row => row.mnemonic) = [(decode w).mnemonic]

/-- Decoding and encoding agree: every well-formed command survives the round trip with every operand bit,
every command word too, and a number is refused exactly where it has more than 66 bits (R61, R65, R67). -/
def Obligations.DecodeAndEncodeAgree : Prop :=
  (∀ i : Instr, i.wellFormed = true → decode (encode i) = i ∧ decodeNat (encode i).toNat = .ok i) ∧
  (∀ w : CommandWord, encode (decode w) = w ∧ decodeTableWord 72 w.toNat = some (decode w)) ∧
  (∀ n : Nat, decodeNat n = .error .wordTooWide ↔ 2 ^ 66 ≤ n)

/-- The command words V-ENC-1 to V-ENC-5 of spec/95_test_vectors.md, written out: op in bits 65:64 and data
in bits 63:0. -/
def Obligations.WrittenCommandWordsDecode : Prop :=
  decode 0x00000000000000000 = .nop 0 ∧
  decode 0x0FFFFFFFFFFFFFFFF = .nop 0xFFFFFFFFFFFFFFFF ∧
  decode 0x1133457799BBCDFF1 = .ldkey 0x133457799BBCDFF1 ∧
  decode 0x20123456789ABCDEF = .enc 0x0123456789ABCDEF ∧
  decode 0x385E813540F0AB405 = .dec 0x85E813540F0AB405

/-- The assembler of rule R68: what each of the eight lines expands to, a program being its lines in order;
the line that each name with its operand stands for; and the operands refused: one on NOP, none on LDKEY, ENC
or DEC, more than 16 digits. The value of an operand is stated in `OperandDigitsWriteTheValue`. -/
def Obligations.AssemblerExpandsAndRefuses : Prop :=
  ((∀ i : Instr, lineActions (.command i) =
      [.drive { rst := false, cmdValid := true, cmdOp := i.op, cmdData := i.data }]) ∧
    (∀ n : Nat, (lineActions (.idle n)).length = n ∧
      ∀ a ∈ lineActions (.idle n), ∃ p, a = .drive p ∧ p.rst = false ∧ p.cmdValid = false) ∧
    (∃ p, lineActions .reset = [.drive p] ∧ p.rst = true ∧ p.cmdValid = false) ∧
    lineActions .wait = [.wait] ∧ lineActions .read = [.read] ∧
    programActions [] = [] ∧
    ∀ line rest, programActions (line :: rest) = lineActions line ++ programActions rest) ∧
  (parseNamed ['N', 'O', 'P'] [] = .ok (.command (.nop 0)) ∧
    (∀ operand v, parseOperand operand = .ok v →
      parseNamed ['L', 'D', 'K', 'E', 'Y'] [operand] = .ok (.command (.ldkey v)) ∧
      parseNamed ['E', 'N', 'C'] [operand] = .ok (.command (.enc v)) ∧
      parseNamed ['D', 'E', 'C'] [operand] = .ok (.command (.dec v))) ∧
    (∀ count n, parseCount count = .ok n → parseNamed ['I', 'D', 'L', 'E'] [count] = .ok (.idle n)) ∧
    parseNamed ['R', 'E', 'S', 'E', 'T'] [] = .ok .reset ∧
    parseNamed ['W', 'A', 'I', 'T'] [] = .ok .wait ∧
    parseNamed ['R', 'E', 'A', 'D'] [] = .ok .read) ∧
  ((∀ digits : List Char, 16 < digits.length →
      parseOperand ('0' :: 'x' :: digits) = .error .operandTooLong) ∧
    (∀ operand rest, parseNamed ['N', 'O', 'P'] (operand :: rest) = .error .unexpectedOperand) ∧
    parseNamed ['L', 'D', 'K', 'E', 'Y'] [] = .error .missingOperand ∧
    parseNamed ['E', 'N', 'C'] [] = .error .missingOperand ∧
    parseNamed ['D', 'E', 'C'] [] = .error .missingOperand)

/-- Rule R68, operands: 1 to 16 hexadecimal digits after `0x` write the 64-bit number that they are in base 16,
zero-padded on the left, and nothing else is an operand. That a digit may be a letter of either case is the
model's reading of R68 (log entry 11). -/
def Obligations.OperandDigitsWriteTheValue : Prop :=
  (∀ (c : Char) (v : Nat), hexDigit c = some v ↔
    (v < 10 ∧ c.toNat = '0'.toNat + v) ∨
    (10 ≤ v ∧ v < 16 ∧ (c.toNat = 'A'.toNat + (v - 10) ∨ c.toNat = 'a'.toNat + (v - 10)))) ∧
  (∀ (digits : List Char) (values : List Nat),
    digits.map hexDigit = values.map some → 1 ≤ digits.length → digits.length ≤ 16 →
    ∃ v, parseOperand ('0' :: 'x' :: digits) = .ok v ∧ v.toNat = Nat.ofDigits 16 values.reverse) ∧
  (∀ operand v, parseOperand operand = .ok v →
    ∃ (digits : List Char) (values : List Nat), operand = '0' :: 'x' :: digits ∧ digits.map hexDigit = values.map some ∧
      1 ≤ digits.length ∧ digits.length ≤ 16)

/-- Rule R68, text: a semicolon starts a comment, and the name of a line counts in either case. That words are
separated by white space is the model's reading of R68 (log entry 11). -/
def Obligations.CommentsAndLetterCaseDoNotCount : Prop :=
  (∀ text comment : List Char, parseLine (text ++ ';' :: comment) = parseLine text) ∧
  (∀ (text text' name name' : List Char) (operands : List (List Char)),
    ';' ∉ text → ';' ∉ text' →
    splitWords [] text = name :: operands → splitWords [] text' = name' :: operands →
    name.map Char.toUpper = name'.map Char.toUpper → parseLine text = parseLine text')

/-- Rule R42: one byte order in both directions; byte k of a word is `word[63-8k : 56-8k]`, so byte 0 is
the most significant. -/
def Obligations.ByteZeroIsMostSignificant : Prop :=
  (∀ b : Vector (BitVec 8) 8, bytesOfWord (wordOfBytes b) = b) ∧
  (∀ w : BitVec 64, wordOfBytes (bytesOfWord w) = w) ∧
  (∀ (b : Vector (BitVec 8) 8) (k : Nat) (h : k < 8),
    (wordOfBytes b).extractLsb' (56 - 8 * k) 8 = b[k]) ∧
  (∀ (w : BitVec 64) (k : Nat) (h : k < 8),
    (bytesOfWord w)[k] = w.extractLsb' (56 - 8 * k) 8)

/-! ## The step (spec/45_commands.md, spec/60_exceptions.md) -/

/-- A step runs the decoded command: where the host's next action presents a command word with `rst = 0`,
the step is `exec` of the decoded command at the state with that action taken off the script. -/
def Obligations.StepRunsThePresentedCommand : Prop :=
  (∀ (s : State) (p : Pins) (rest : List HostAct),
    s.script = .drive p :: rest → p.rst = false → p.cmdValid = true →
    step s = exec (decode p.word) { s with script := rest }) ∧
  (∀ (s : State) (i : Instr) (rest : List HostAct),
    s.script = HostAct.present (encode i) :: rest → step s = exec i { s with script := rest }) ∧
  (∀ (s : State) (nbits w : Nat), 66 ≤ nbits → w < 2 ^ 66 →
    step (s.withFetchWord nbits w) = exec (decode (BitVec.ofNat 66 w)) s)

/-- Rule R180: one core step, branch by branch, from the levels on the ports. -/
def Obligations.CoreStepBranches : Prop :=
  ∀ (s : State) (p : Pins) (rest : List HostAct), s.script = .drive p :: rest →
    (p.rst = true →
      step s = .next
        { s with script := rest, key := none, l := none, r := none, c := none, d := none, dout := none,
                 ctl := some { keyValid := false, mode := .encrypt, round := 0, busy := false,
                               doutValid := false },
                 resp := if p.cmdValid then .rst else .ok }) ∧
    (∀ ctl, s.ctl = some ctl → p.rst = false → ctl.busy = true →
      step s = .next
        { (if ctl.round.toNat < 16 then roundStep ctl s else finalStep ctl s) with
            script := rest,
            resp := if p.cmdValid = true ∧ p.cmdOp ≠ 0b00#2 then .busy else .ok }) ∧
    (∀ ctl, s.ctl = some ctl → p.rst = false → ctl.busy = false →
      step s = .next
        (if p.cmdValid = false ∨ p.cmdOp = 0b00#2 then { s with script := rest, resp := .ok }
         else if p.cmdOp = 0b01#2 then
           { s with script := rest, key := some p.cmdData, ctl := some { ctl with keyValid := true },
                    resp := .ok }
         else if ctl.keyValid = false then { s with script := rest, resp := .noKey }
         else
           { accept (if p.cmdOp = 0b10#2 then .encrypt else .decrypt) p.cmdData ctl s with
               script := rest, resp := .ok }))

/-- Rules R66, R189 and R204: the response that the port drives combinationally is the one the step
records, in every step that has one, and a step whose response is undefined is a fault of the run (R222).
Every step from a state that has been reset completes. -/
def Obligations.ResponsePortMatchesTheStep : Prop :=
  (∀ (p : Pins) (s t : State), clockEdge p s = .next t → responsePort p s.ctl = some t.resp) ∧
  (∀ (p : Pins) (s : State), responsePort p s.ctl = none → clockEdge p s = .fault .stepBeforeReset) ∧
  (∀ (p : Pins) (s : State), Booted s ∨ p.rst = true → ∃ t, clockEdge p s = .next t ∧ Booted t)

/-- The codes of rule R66 and what alone raises each (R201): RST a command in a reset step, BUSY a command
other than NOP while a block is in flight, NOKEY ENC or DEC with no block in flight and no key, OK everything
else, a step with no command included. -/
def Obligations.ResponseCodesAndTheirCauses : Prop :=
  ∀ (p : Pins) (s t : State) (ctl : Control), s.ctl = some ctl → clockEdge p s = .next t →
    (t.resp.code = 0b11#2 ↔ p.rst = true ∧ p.cmdValid = true) ∧
    (t.resp.code = 0b01#2 ↔
      p.rst = false ∧ p.cmdValid = true ∧ ctl.busy = true ∧ p.cmdOp ≠ 0b00#2) ∧
    (t.resp.code = 0b10#2 ↔
      p.rst = false ∧ p.cmdValid = true ∧ ctl.busy = false ∧ ctl.keyValid = false ∧
        (p.cmdOp = 0b10#2 ∨ p.cmdOp = 0b11#2)) ∧
    (p.cmdValid = false → t.resp.code = 0b00#2)

/-- Rule R200 with R222 and R226: a step answers a next state, or the run is at fault in one of the two
ways the spec names; no step is refused. -/
def Obligations.OnlyTheTwoNamedFaults : Prop :=
  ∀ s : State,
    (∃ t, step s = .next t) ∨
    (step s = .fault .stepBeforeReset ∧ ¬ Booted s) ∨
    (step s = .fault .readWhileInvalid ∧ HostAct.read ∈ s.script ∧ s.showsResult = false)

/-- Rule R181: NOP answers OK and writes no register of its own; while a block is in flight the engine still
advances; a NOP and a step with no command have the same effect on the state; NOP during reset gets RST. -/
def Obligations.NopWritesNothing : Prop :=
  (∀ (data : BitVec 64) (s : State) (ctl : Control), s.ctl = some ctl → ctl.busy = false →
    exec (.nop data) s = .next { s with resp := .ok }) ∧
  (∀ (data : BitVec 64) (s : State) (ctl : Control), s.ctl = some ctl → ctl.busy = true →
    exec (.nop data) s = .next { engineStep ctl s with resp := .ok }) ∧
  (∀ (data data' : BitVec 64) (op : BitVec 2) (s : State),
    clockEdge { rst := false, cmdValid := true, cmdOp := 0b00#2, cmdData := data } s =
      clockEdge { rst := false, cmdValid := false, cmdOp := op, cmdData := data' } s) ∧
  (∀ (data : BitVec 64) (s : State),
    ∃ t, clockEdge { rst := true, cmdValid := true, cmdOp := 0b00#2, cmdData := data } s = .next t ∧
      t.resp = .rst)

/-- Rule R182: LDKEY writes KEY and KEY_VALID and nothing else, and answers OK; while a block is in flight
it answers BUSY and writes nothing; loading the same key twice leaves the same state as once. -/
def Obligations.LdkeyLoadsTheKey : Prop :=
  (∀ (key : Key) (s : State) (ctl : Control), s.ctl = some ctl → ctl.busy = false →
    exec (.ldkey key) s =
      .next { s with key := some key, ctl := some { ctl with keyValid := true }, resp := .ok }) ∧
  (∀ (key : Key) (s : State) (ctl : Control), s.ctl = some ctl → ctl.busy = true →
    exec (.ldkey key) s = .next { engineStep ctl s with resp := .busy } ∧
      (engineStep ctl s).key = s.key) ∧
  (∀ (key : Key) (s t : State) (ctl : Control), s.ctl = some ctl → ctl.busy = false →
    exec (.ldkey key) s = .next t → exec (.ldkey key) t = .next t) ∧
  (∃ t, exec (.ldkey 0x133457799BBCDFF1) State.reset = .next t ∧ t.resp = .ok ∧
    t.status = some 0x0004)

/-- The accept step of ENC (R183): with no block in flight and a key loaded, the block goes through IP into
L and R, KEY through PC1 into C and D, and MODE is 0. `s.key` is known in every reachable state (R22); were
it `⊥`, C and D would be `⊥` (R10). -/
def Obligations.EncAcceptsABlock : Prop :=
  ∀ (block : Block) (s : State) (ctl : Control),
    s.ctl = some ctl → ctl.busy = false → ctl.keyValid = true →
    exec (.enc block) s = .next
      { s with l := some ((ip64 block).extractLsb' 32 32), r := some ((ip64 block).extractLsb' 0 32),
               c := s.key.map fun key => (pc1 key).extractLsb' 28 28,
               d := s.key.map fun key => (pc1 key).extractLsb' 0 28,
               ctl := some { keyValid := true, mode := .encrypt, round := 0, busy := true,
                             doutValid := false },
               resp := .ok }

/-- The accept step of DEC (R184), with MODE 1. -/
def Obligations.DecAcceptsABlock : Prop :=
  ∀ (block : Block) (s : State) (ctl : Control),
    s.ctl = some ctl → ctl.busy = false → ctl.keyValid = true →
    exec (.dec block) s = .next
      { s with l := some ((ip64 block).extractLsb' 32 32), r := some ((ip64 block).extractLsb' 0 32),
               c := s.key.map fun key => (pc1 key).extractLsb' 28 28,
               d := s.key.map fun key => (pc1 key).extractLsb' 0 28,
               ctl := some { keyValid := true, mode := .decrypt, round := 0, busy := true,
                             doutValid := false },
               resp := .ok }

/-- Rule R187: a command other than NOP presented while BUSY = 1 gets BUSY, and the state it leaves is the
one that a step with no command leaves, but for the response: nothing is written because of it and nothing
is queued. -/
def Obligations.CommandsRefusedWhileBusy : Prop :=
  ∀ (i : Instr) (s : State) (ctl : Control), s.ctl = some ctl → ctl.busy = true → i.op ≠ 0b00#2 →
    exec i s = .next { engineStep ctl s with resp := .busy } ∧
    ∃ t, idleStep s = .next t ∧ exec i s = .next { t with resp := .busy }

/-- Rule R188: ENC or DEC with BUSY = 0 and KEY_VALID = 0 gets NOKEY and writes nothing. -/
def Obligations.BlockCommandsRefusedWithoutKey : Prop :=
  ∀ (mode : Mode) (block : Block) (s : State) (ctl : Control),
    s.ctl = some ctl → ctl.busy = false → ctl.keyValid = false →
    exec (blockInstr mode block) s = .next { s with resp := .noKey }

/-- The frame of a command while no block is in flight: only the response, and what R182 to R184 name for
the command, may change. -/
def Obligations.FrameOfCommandsWhenIdle : Prop :=
  ∀ (i : Instr) (s t : State) (ctl ctl' : Control),
    s.ctl = some ctl → ctl.busy = false → exec i s = .next t → t.ctl = some ctl' →
    t.script = s.script ∧ t.samples = s.samples ∧ t.dout = s.dout ∧
    (i.op ≠ 0b01#2 → t.key = s.key ∧ ctl'.keyValid = ctl.keyValid) ∧
    (i.op = 0b00#2 ∨ i.op = 0b01#2 →
      t.l = s.l ∧ t.r = s.r ∧ t.c = s.c ∧ t.d = s.d ∧ ctl'.mode = ctl.mode ∧ ctl'.round = ctl.round ∧
      ctl'.busy = ctl.busy ∧ ctl'.doutValid = ctl.doutValid)

/-- The frame of a command while a block is in flight: the engine's round step writes L, R, C, D and ROUND
only (R185), its final step DOUT, DOUT_VALID, BUSY and ROUND only (R186), and the command writes nothing
(R181, R187). -/
def Obligations.FrameOfCommandsWhenBusy : Prop :=
  ∀ (i : Instr) (s t : State) (ctl ctl' : Control),
    s.ctl = some ctl → ctl.busy = true → exec i s = .next t → t.ctl = some ctl' →
    t.script = s.script ∧ t.samples = s.samples ∧ t.key = s.key ∧ ctl'.keyValid = ctl.keyValid ∧
    ctl'.mode = ctl.mode ∧
    (ctl.round.toNat < 16 →
      t.dout = s.dout ∧ ctl'.busy = ctl.busy ∧ ctl'.doutValid = ctl.doutValid) ∧
    (16 ≤ ctl.round.toNat → t.l = s.l ∧ t.r = s.r ∧ t.c = s.c ∧ t.d = s.d)

/-- The column "written by" of rule R20, over every step with `rst = 0`: a register changes only in a step
that the table names for it. -/
def Obligations.RegistersChangeOnlyByTheirWriters : Prop :=
  ∀ (p : Pins) (s t : State) (ctl ctl' : Control),
    p.rst = false → s.ctl = some ctl → clockEdge p s = .next t → t.ctl = some ctl' →
    (t.key ≠ s.key ∨ ctl'.keyValid ≠ ctl.keyValid → KeyAccepted p ctl) ∧
    (ctl'.mode ≠ ctl.mode → Accepted p ctl) ∧
    (t.l ≠ s.l ∨ t.r ≠ s.r ∨ t.c ≠ s.c ∨ t.d ≠ s.d →
      Accepted p ctl ∨ (ctl.busy = true ∧ ctl.round.toNat < 16)) ∧
    (ctl'.round ≠ ctl.round → Accepted p ctl ∨ ctl.busy = true) ∧
    (ctl'.busy ≠ ctl.busy ∨ ctl'.doutValid ≠ ctl.doutValid →
      Accepted p ctl ∨ (ctl.busy = true ∧ 16 ≤ ctl.round.toNat)) ∧
    (t.dout ≠ s.dout → ctl.busy = true ∧ 16 ≤ ctl.round.toNat)

/-- Rule R185: the round step, in every step with `rst = 0`, BUSY = 1 and ROUND < 16, whatever the command
port shows. The amounts are the tables of R96 and R144. -/
def Obligations.RoundStepRunsOneRound : Prop :=
  ∀ (s : State) (p : Pins) (rest : List HostAct) (ctl : Control) (l r : Half) (c d : HalfKey),
    s.script = .drive p :: rest → p.rst = false → s.ctl = some ctl → ctl.busy = true →
    ctl.round.toNat < 16 → s.l = some l → s.r = some r → s.c = some c → s.d = some d →
    let shifts : List RotAmount := [1, 1, 2, 2, 2, 2, 2, 2, 1, 2, 2, 2, 2, 2, 2, 1]
    let rshifts : List RotAmount := [0, 1, 2, 2, 2, 2, 2, 2, 1, 2, 2, 2, 2, 2, 2, 1]
    let c' := if ctl.mode = .encrypt then rotl28 c (shifts.getD ctl.round.toNat 0)
              else rotr28 c (rshifts.getD ctl.round.toNat 0)
    let d' := if ctl.mode = .encrypt then rotl28 d (shifts.getD ctl.round.toNat 0)
              else rotr28 d (rshifts.getD ctl.round.toNat 0)
    step s = .next
      { s with script := rest, l := some r, r := some (l ^^^ roundF r (pc2 (c' ++ d'))),
               c := some c', d := some d', ctl := some { ctl with round := ctl.round + 1 },
               resp := if p.cmdValid = true ∧ p.cmdOp ≠ 0b00#2 then .busy else .ok }

/-- Rule R186: the final step, in the step with `rst = 0`, BUSY = 1 and ROUND = 16: DOUT takes FP of the
swapped halves and the control registers end the block; every other register is unchanged. -/
def Obligations.FinalStepWritesTheResult : Prop :=
  ∀ (s : State) (p : Pins) (rest : List HostAct) (ctl : Control) (l r : Half),
    s.script = .drive p :: rest → p.rst = false → s.ctl = some ctl → ctl.busy = true →
    ctl.round.toNat = 16 → s.l = some l → s.r = some r →
    step s = .next
      { s with script := rest, dout := some (fp64 (r ++ l)),
               ctl := some { ctl with doutValid := true, busy := false, round := 0 },
               resp := if p.cmdValid = true ∧ p.cmdOp ≠ 0b00#2 then .busy else .ok }

/-- Rule R10: in the round step, the final step and the accept step a computation that reads `⊥` yields `⊥`,
and one that reads none does not. The accept step's L and R come from the block, which is always known. -/
def Obligations.UnknownContentsStayUnknown : Prop :=
  ∀ (ctl : Control) (s : State),
    ((roundStep ctl s).l = none ↔ s.r = none) ∧
    ((roundStep ctl s).c = none ↔ s.c = none) ∧
    ((roundStep ctl s).d = none ↔ s.d = none) ∧
    ((roundStep ctl s).r = none ↔ s.l = none ∨ s.r = none ∨ s.c = none ∨ s.d = none) ∧
    ((finalStep ctl s).dout = none ↔ s.l = none ∨ s.r = none) ∧
    (∀ mode block, ((accept mode block ctl s).c = none ↔ s.key = none) ∧
      ((accept mode block ctl s).d = none ↔ s.key = none) ∧
      (accept mode block ctl s).l ≠ none ∧ (accept mode block ctl s).r ≠ none)

/-! ## Reset and the host (spec/70_reset_and_hazards.md, rules R30, R68) -/

/-- Rule R220: in every step with `rst = 1`, whatever the state and the other inputs, the control registers
take 0 and KEY, L, R, C, D and DOUT are `⊥` afterwards, and `status` is 0x0000. -/
def Obligations.ResetActsInEveryState : Prop :=
  ∀ (p : Pins) (s : State), p.rst = true →
    ∃ t, clockEdge p s = .next t ∧
      t.ctl = some { keyValid := false, mode := .encrypt, round := 0, busy := false, doutValid := false } ∧
      t.key = none ∧ t.l = none ∧ t.r = none ∧ t.c = none ∧ t.d = none ∧ t.dout = none ∧
      t.script = s.script ∧ t.samples = s.samples ∧ t.status = some 0x0000

/-- Rule R221: a command presented in a step with `rst = 1` gets RST and has no effect: the state is that of
a reset step with no command, but for the response. -/
def Obligations.CommandsDroppedDuringReset : Prop :=
  ∀ (op op' : BitVec 2) (data data' : BitVec 64) (s : State),
    ∃ t, clockEdge { rst := true, cmdValid := false, cmdOp := op', cmdData := data' } s = .next t ∧
      clockEdge { rst := true, cmdValid := true, cmdOp := op, cmdData := data } s =
        .next { t with resp := .rst }

/-- Rule R222: before the first reset every register is `⊥`, and any step with `rst = 0` from there is a
fault of the run, while a reset step is not. After reset the core waits idle for a command: a step with no
command leaves the state as it is. -/
def Obligations.StepsBeforeResetAreFaults : Prop :=
  (State.powerOn.key = none ∧ State.powerOn.l = none ∧ State.powerOn.r = none ∧
    State.powerOn.c = none ∧ State.powerOn.d = none ∧ State.powerOn.dout = none ∧
    State.powerOn.ctl = none) ∧
  (∀ (p : Pins) (s : State), s.ctl = none → p.rst = false →
    clockEdge p s = .fault .stepBeforeReset) ∧
  (∀ (i : Instr) (s : State), s.ctl = none → exec i s = .fault .stepBeforeReset) ∧
  (∀ (p : Pins) (s : State), s.ctl = none → p.rst = true →
    ∃ t, clockEdge p s = .next t ∧ t.ctl = some Control.reset ∧
      ∀ q : Pins, q.rst = false → q.cmdValid = false → clockEdge q t = .next { t with resp := .ok })

/-- Rules R226 and R68: a READ with `dout_valid = 0` is a fault of the run; with `dout_valid = 1` it samples
DOUT, takes no step of the core and changes nothing else. That a READ before the first reset is the same
fault is the model's own choice (log entry 6). -/
def Obligations.ReadSamplesOnlyAValidResult : Prop :=
  (∀ (s : State) (ctl : Control) (rest : List HostAct),
    s.ctl = some ctl → s.script = .read :: rest →
    (ctl.doutValid = false → step s = .fault .readWhileInvalid) ∧
    (ctl.doutValid = true →
      step s = step { s with script := rest, samples := s.samples ++ [s.dout] })) ∧
  (∀ (s : State) (rest : List HostAct), s.ctl = none → s.script = .read :: rest →
    step s = .fault .readWhileInvalid)

/-- Rule R68, the line WAIT: with `dout_valid = 0` the step is one with no command and the host waits on;
with `dout_valid = 1` the host goes on to its next action in the same step. -/
def Obligations.WaitHoldsTheHost : Prop :=
  ∀ (s : State) (ctl : Control) (rest : List HostAct),
    s.ctl = some ctl → s.script = .wait :: rest →
    (ctl.doutValid = false → step s = clockEdge Pins.quiet s) ∧
    (ctl.doutValid = true → step s = step { s with script := rest })

/-- Rule R30: the fields of the status word, its value after reset, and the rule's example. -/
def Obligations.StatusWordLayout : Prop :=
  (∀ ctl : Control,
    ctl.status.extractLsb' 0 1 = (if ctl.busy then 1 else 0) ∧
    ctl.status.extractLsb' 1 1 = (if ctl.doutValid then 1 else 0) ∧
    ctl.status.extractLsb' 2 1 = (if ctl.keyValid then 1 else 0) ∧
    ctl.status.extractLsb' 3 1 = (if ctl.mode = .decrypt then 1 else 0) ∧
    ctl.status.extractLsb' 4 5 = ctl.round ∧
    ctl.status.extractLsb' 9 7 = 0) ∧
  State.reset.status = some 0x0000 ∧
  Control.status { keyValid := true, mode := .encrypt, round := 5, busy := true, doutValid := false } =
    0x0055

/-! ## Tables and the permutation primitive (spec/40_tables.md, spec/41_permute.md) -/

/-- Rule R97: the lengths, ranges and distinct entries of the tables. -/
def Obligations.TablesAreWellFormed : Prop :=
  (Tables.IP_L.length = 64 ∧ (∀ i ∈ Tables.IP_L, i < 64) ∧ Tables.IP_L.Nodup) ∧
  (Tables.FP_L.length = 64 ∧ (∀ i ∈ Tables.FP_L, i < 64) ∧ Tables.FP_L.Nodup) ∧
  (∀ i, i < 64 → Tables.IP_L.getD (Tables.FP_L.getD i 64) 64 = i) ∧
  (Tables.E_L.length = 48 ∧ (∀ i ∈ Tables.E_L, i < 32) ∧ (∀ b, b < 32 → b ∈ Tables.E_L)) ∧
  (Tables.P_L.length = 32 ∧ (∀ i ∈ Tables.P_L, i < 32) ∧ Tables.P_L.Nodup) ∧
  (Tables.PC1_L.length = 56 ∧ (∀ i ∈ Tables.PC1_L, i < 64 ∧ i % 8 ≠ 0) ∧ Tables.PC1_L.Nodup) ∧
  (Tables.PC2_L.length = 48 ∧ (∀ i ∈ Tables.PC2_L, i < 56) ∧ Tables.PC2_L.Nodup) ∧
  (∀ sd ∈ Tables.sboxes, sd.length = 64 ∧ (∀ v ∈ sd, v ≤ 15) ∧ (∀ v, v < 16 → sd.count v = 4))

/-- Rule R80: `T_L[i] = M - T[N-1-i]` for the six tables, and both forms define the same function: FIPS bit
j of the result (1-based from the most significant bit) is FIPS bit `T[j-1]` of x. -/
def Obligations.FipsFormsDefineTheSameFunction : Prop :=
  (Tables.IP_L = Tables.lsbForm 64 Tables.IP_FIPS ∧ Tables.FP_L = Tables.lsbForm 64 Tables.FP_FIPS ∧
    Tables.E_L = Tables.lsbForm 32 Tables.E_FIPS ∧ Tables.P_L = Tables.lsbForm 32 Tables.P_FIPS ∧
    Tables.PC1_L = Tables.lsbForm 64 Tables.PC1_FIPS ∧
    Tables.PC2_L = Tables.lsbForm 56 Tables.PC2_FIPS) ∧
  (∀ (m : Nat) (table : List Nat) (x : BitVec m) (j : Nat),
    1 ≤ j → j ≤ table.length →
    (permute table.length (Tables.lsbForm m table) x).getLsbD (table.length - j) =
      x.getLsbD (m - table.getD (j - 1) 0))

/-- Rule R87: the direct-index arrays come from the FIPS S-boxes by row = outer bits, column = inner bits;
every entry is in 0..15, and each FIPS row is a permutation of 0..15. -/
def Obligations.DirectIndexArraysComeFromFips : Prop :=
  Tables.sboxes = Tables.sboxesFips.map Tables.directForm ∧
  (∀ sd ∈ Tables.sboxes, ∀ v ∈ sd, v ≤ 15) ∧
  (∀ s ∈ Tables.sboxesFips, s.length = 64 ∧
    ∀ row, row < 4 → ∀ v, v < 16 → ((s.drop (16 * row)).take 16).count v = 1)

/-- Rule R100: output bit i of `permute` is input bit `T[i]`; `permute(T, 0) = 0`; `permute` is linear over
xor; input bits that T does not name do not affect the result. -/
def Obligations.PermuteCopiesTheNamedBits : Prop :=
  ∀ (m : Nat) (table : List Nat),
    (∀ (x : BitVec m) (i : Nat) (h : i < table.length),
      (permute table.length table x).getLsbD i = x.getLsbD table[i]) ∧
    permute table.length table (0 : BitVec m) = 0 ∧
    (∀ a b : BitVec m, permute table.length table (a ^^^ b) =
      permute table.length table a ^^^ permute table.length table b) ∧
    (∀ a b : BitVec m, (∀ j ∈ table, a.getLsbD j = b.getLsbD j) →
      permute table.length table a = permute table.length table b)

/-- Rule R103: IP and FP are mutual inverses. -/
def Obligations.IpAndFpAreMutualInverses : Prop :=
  ∀ x : BitVec 64, fp64 (ip64 x) = x ∧ ip64 (fp64 x) = x

/-- Rule R104: PC1 drops the parity bits 0, 8, ..., 56 of the key. -/
def Obligations.Pc1DropsTheParityBits : Prop :=
  ∀ k m : Key, m &&& ~~~0x0101010101010101#64 = 0 → pc1 (k ^^^ m) = pc1 k

/-- Rules R105 and R106: E copies the sixteen listed bits twice and each other bit once; PC2 drops the eight
listed bits and reads each other bit once, so those eight never reach a subkey. -/
def Obligations.ExpansionDuplicatesAndPc2Drops : Prop :=
  (∀ b, b < 32 → Tables.E_L.count b =
    if b ∈ [31, 28, 27, 24, 23, 20, 19, 16, 15, 12, 11, 8, 7, 4, 3, 0] then 2 else 1) ∧
  (∀ b, b < 56 → Tables.PC2_L.count b = if b ∈ [47, 38, 34, 31, 21, 18, 13, 2] then 0 else 1) ∧
  (∀ x y : PermutedKey,
    (∀ b, b < 56 → b ∉ [47, 38, 34, 31, 21, 18, 13, 2] → x.getLsbD b = y.getLsbD b) → pc2 x = pc2 y) ∧
  e48 0x80000000 = 0x400000000001 ∧ pc2 0x4 = 0 ∧ pc2 0x1 = 0x000000000100

/-! ## The round function (spec/42_round_function.md) -/

/-- Rules R123, R124 and R125: lane i reads group i, `x[47-6i : 42-6i]`, as a direct index into S-box i and
writes nibble i, `s[31-4i : 28-4i]`. -/
def Obligations.SboxLanesAreIndependent : Prop :=
  ∀ (x : BitVec 48) (i : Nat), i < 8 →
    ((sboxLayer x).extractLsb' (28 - 4 * i) 4).toNat =
      (Tables.sboxes.getD i []).getD (x.extractLsb' (42 - 6 * i) 6).toNat 0

/-- The corner cases of rule R120: F depends on R and K only through `E48(R) xor K`, and complementing both
leaves it unchanged. -/
def Obligations.RoundFunctionOfComplements : Prop :=
  (∀ (r r' : Half) (k k' : Subkey), e48 r ^^^ k = e48 r' ^^^ k' → roundF r k = roundF r' k') ∧
  (∀ r : Half, e48 (~~~r) = ~~~e48 r) ∧
  (∀ (r : Half) (k : Subkey), roundF (~~~r) (~~~k) = roundF r k) ∧
  roundF 0 0 = 0xD8D8DBBC

/-! ## The key schedule (spec/43_key_schedule.md) -/

/-- Rules R141 and R142: the rotators are circular within the 28-bit half, bit by bit, and the right rotator
undoes the left one. -/
def Obligations.RotatorsAreCircular : Prop :=
  (∀ (v : HalfKey) (n : RotAmount) (i : Nat), i < 28 →
    (rotl28 v n).getLsbD i = v.getLsbD ((i + (28 - n.val)) % 28) ∧
    (rotr28 v n).getLsbD i = v.getLsbD ((i + n.val) % 28)) ∧
  (∀ (v : HalfKey) (n : RotAmount), rotr28 (rotl28 v n) n = v ∧ rotl28 (rotr28 v n) n = v)

/-- Rule R150 with the tables of R96 and R144: the amount is a function of MODE and ROUND alone, it is 0
only for MODE = 1 and r = 0, and otherwise 1 or 2. -/
def Obligations.RotationAmounts : Prop :=
  (List.range 16).map (amount .encrypt) = [1, 1, 2, 2, 2, 2, 2, 2, 1, 2, 2, 2, 2, 2, 2, 1] ∧
  (List.range 16).map (amount .decrypt) = [0, 1, 2, 2, 2, 2, 2, 2, 1, 2, 2, 2, 2, 2, 2, 1] ∧
  (∀ r, 1 ≤ r → r < 16 → amount .decrypt r = amount .encrypt (16 - r)) ∧
  (∀ mode r, r < 16 → (amount mode r = 0 ↔ mode = .decrypt ∧ r = 0))

/-- Rule R149: no rotation moves a bit between C and D, and PC2 changes neither. -/
def Obligations.KeyHalvesAreIndependent : Prop :=
  ∀ (ctl : Control) (s t : State),
    (s.c = t.c → (roundStep ctl s).c = (roundStep ctl t).c) ∧
    (s.d = t.d → (roundStep ctl s).d = (roundStep ctl t).d)

/-- Rule R147: the decryption schedule is the encryption schedule in reverse, and so is the state behind
it. -/
def Obligations.DecryptionSubkeysMirrorEncryption : Prop :=
  ∀ (key : Key) (r : Nat), r ≤ 15 →
    subkey key .decrypt r = subkey key .encrypt (15 - r) ∧
    keyState .decrypt key (r + 1) = keyState .encrypt key (16 - r)

/-- Rule R148: after sixteen rounds `C ++ D` is PC1 of the key again in encryption, and PC1 with each half
rotated left by 1 in decryption. -/
def Obligations.FinalKeyScheduleState : Prop :=
  ∀ key : Key,
    (keyState .encrypt key 16).1 ++ (keyState .encrypt key 16).2 = pc1 key ∧
    keyState .decrypt key 16 =
      (rotl28 ((pc1 key).extractLsb' 28 28) 1, rotl28 ((pc1 key).extractLsb' 0 28) 1)

/-! ## The block function (spec/44_feistel_engine.md) -/

/-- Rule R165: for every key and block, decryption undoes encryption and encryption undoes decryption. -/
def Obligations.DecryptionUndoesEncryption : Prop :=
  ∀ (key : Key) (block : Block),
    des .decrypt key (des .encrypt key block) = block ∧
    des .encrypt key (des .decrypt key block) = block

/-- Rule R168: complementing the key and the block complements the result, in both modes. -/
def Obligations.ComplementationProperty : Prop :=
  ∀ (mode : Mode) (key : Key) (block : Block), des mode (~~~key) (~~~block) = ~~~des mode key block

/-- Rule R169: for a key whose 16 subkeys are all equal, the two schedules agree, ENC and DEC compute the
same function, and encrypting twice returns the input; the all-parity key is such a key. -/
def Obligations.EqualSubkeysMakeEncryptionAnInvolution : Prop :=
  (∀ key : Key, (∀ r, r < 16 → subkey key .encrypt r = subkey key .encrypt 0) →
    keySchedule key .encrypt = keySchedule key .decrypt ∧
    ∀ block, des .encrypt key block = des .decrypt key block ∧
      des .encrypt key (des .encrypt key block) = block) ∧
  (∀ r, r < 16 →
    subkey 0x0101010101010101 .encrypt r = subkey 0x0101010101010101 .encrypt 0)

/-- The eight known-answer vectors of spec/95_test_vectors.md section 2.1. The spec gives them from general
knowledge; each was recomputed from its rules. -/
def Obligations.KnownAnswerVectors : Prop :=
  des .encrypt 0x133457799BBCDFF1 0x0123456789ABCDEF = 0x85E813540F0AB405 ∧
  des .encrypt 0x0123456789ABCDEF 0x4E6F772069732074 = 0x3FA40E8A984D4815 ∧
  des .encrypt 0x0E329232EA6D0D73 0x8787878787878787 = 0x0000000000000000 ∧
  des .encrypt 0x0000000000000000 0x0000000000000000 = 0x8CA64DE9C1B123A7 ∧
  des .encrypt 0xFFFFFFFFFFFFFFFF 0xFFFFFFFFFFFFFFFF = 0x7359B2163E4EDC58 ∧
  des .encrypt 0x3000000000000000 0x1000000000000001 = 0x958E6E627A05557B ∧
  des .encrypt 0x0123456789ABCDEF 0x1111111111111111 = 0x17668DFC7292532D ∧
  des .encrypt 0x0101010101010101 0x8000000000000000 = 0x95F8A5E5DD31D900

/-! ## Invariants and whole runs -/

/-- The invariants of rule R35 hold at reset, and nothing is claimed of the power-on state. -/
def Obligations.InvariantHoldsAtReset : Prop := CoreInvariant State.reset ∧ CoreInvariant State.powerOn

/-- Every step keeps the invariants of rule R35. It holds from every state with the invariant, whatever the
host does. Item 5 speaks here of some key and some block. IP and a round are bijections, so for C and D it says
that they are the key-schedule state of KEY after ROUND rotations, but any known L and R fit some block: that
they stay those of the one accepted block is `StagesFollowTheAcceptedBlock`. -/
def Obligations.EveryStepKeepsTheInvariant : Prop :=
  ∀ s t : State, CoreInvariant s → step s = .next t → CoreInvariant t

/-- The stages of rule R167, for one fixed key and block. The accept step of ENC or DEC establishes
`L, R = L_0, R_0` and `C ++ D = CD[0]` at ROUND 0 for the block presented and the key loaded; each round step
takes the half-blocks and the key-schedule state after ROUND rounds of that same key and block to those after
one round more; the final step writes `DES(MODE, key, block)`. Whatever command the port shows in a step with a
block in flight, as long as it is no reset step. -/
def Obligations.StagesFollowTheAcceptedBlock : Prop :=
  (∀ (mode : Mode) (key : Key) (block : Block) (s : State) (ctl : Control),
    s.ctl = some ctl → ctl.busy = false → ctl.keyValid = true → s.key = some key →
    ∃ (t : State) (ctl' : Control), exec (blockInstr mode block) s = .next t ∧ t.ctl = some ctl' ∧
      ctl' = { keyValid := true, mode := mode, round := 0, busy := true, doutValid := false } ∧
      InFlight ctl' key block t) ∧
  (∀ (p : Pins) (key : Key) (block : Block) (s : State) (ctl : Control),
    p.rst = false → s.ctl = some ctl → ctl.busy = true → InFlight ctl key block s →
    (ctl.round.toNat < 16 →
      ∃ (t : State) (ctl' : Control), clockEdge p s = .next t ∧ t.ctl = some ctl' ∧
        ctl' = { ctl with round := ctl.round + 1 } ∧ ctl'.round.toNat = ctl.round.toNat + 1 ∧
        InFlight ctl' key block t) ∧
    (ctl.round.toNat = 16 →
      ∃ t : State, clockEdge p s = .next t ∧ t.dout = some (des ctl.mode key block) ∧
        t.ctl = some { ctl with doutValid := true, busy := false, round := 0 }))

/-- Rules R183, R184, R191 and R224: a block accepted in step t is complete at the start of step t+18 with
`DOUT = DES(mode, KEY, block)`, whatever commands the host presents in between, as long as it does not
reset the core. KEY is the key that the block was accepted with. -/
def Obligations.AcceptedBlockCompletesInEighteenSteps : Prop :=
  ∀ (s : State) (ctl : Control) (mode : Mode) (key : Key) (block : Block) (ports : List Pins)
    (rest : List HostAct),
    s.ctl = some ctl → ctl.busy = false → ctl.keyValid = true → s.key = some key →
    NoReset ports → ports.length = 17 →
    s.script = HostAct.present (encode (blockInstr mode block)) :: (ports.map .drive ++ rest) →
    Config.stepsPerBlock = 18 ∧
    ∃ t : State, Host.Core.run Sys2Proof.core Config.stepsPerBlock s = .next t ∧
      t.dout = some (des mode key block) ∧
      t.ctl = some { keyValid := true, mode := mode, round := 0, busy := false, doutValid := true } ∧
      t.key = some key ∧ t.script = rest ∧ t.samples = s.samples

/-- Rule R225: after an accept in step t, LDKEY, ENC and DEC get BUSY in steps t+1 to t+17 and leave the key
alone, and the next block can be accepted in step t+18. -/
def Obligations.BusyInterlock : Prop :=
  ∀ (s : State) (ctl : Control) (mode : Mode) (key : Key) (block : Block) (ports : List Pins)
    (p : Pins) (rest : List HostAct),
    s.ctl = some ctl → ctl.busy = false → ctl.keyValid = true → s.key = some key →
    NoReset ports → ports.length ≤ 17 → p.rst = false → p.cmdValid = true → p.cmdOp ≠ 0b00#2 →
    s.script = HostAct.present (encode (blockInstr mode block)) :: (ports.map .drive ++ .drive p :: rest) →
    ∃ t : State, Host.Core.run Sys2Proof.core (ports.length + 2) s = .next t ∧
      (ports.length ≤ 16 → t.resp = .busy ∧ t.key = some key) ∧
      (ports.length = 17 → t.resp = .ok)

/-- The core never deadlocks (spec/93_implementation_defined.md, rule R225): with no reset, a block in flight
ends within 17 steps, whatever the host presents. -/
def Obligations.BlockInFlightEndsWithinSeventeenSteps : Prop :=
  ∀ (s : State) (ctl : Control) (ports : List Pins) (rest : List HostAct),
    s.ctl = some ctl → ctl.busy = true → ctl.round.toNat ≤ 16 → NoReset ports →
    ports.length = 17 - ctl.round.toNat → s.script = ports.map .drive ++ rest →
    ∃ (t : State) (ctl' : Control), Host.Core.run Sys2Proof.core (17 - ctl.round.toNat) s = .next t ∧ t.ctl = some ctl' ∧
      ctl'.complete = true ∧ ctl'.round = 0

/-- Rules R28 and R226: a completed result stays in DOUT with `dout_valid = 1` through any number of steps
in which the host neither resets the core nor presents ENC or DEC; LDKEY in particular leaves it. -/
def Obligations.ResultStaysUntilTheNextBlock : Prop :=
  ∀ (s : State) (ctl : Control) (ports : List Pins) (rest : List HostAct),
    s.ctl = some ctl → ctl.busy = false → ctl.doutValid = true → NoReset ports →
    (∀ p ∈ ports, p.cmdValid = true → p.cmdOp = 0b00#2 ∨ p.cmdOp = 0b01#2) →
    s.script = ports.map .drive ++ rest →
    ∃ (t : State) (ctl' : Control), Host.Core.run Sys2Proof.core ports.length s = .next t ∧ t.ctl = some ctl' ∧
      t.dout = s.dout ∧ ctl'.doutValid = true ∧ ctl'.busy = false

/-- Rules R191 and R206: with no block in flight and no valid result, as after a reset, nothing but an
accepted ENC or DEC can lead to one: a block that a reset abandoned never completes. -/
def Obligations.NoResultWithoutAnAcceptedBlock : Prop :=
  ∀ (p : Pins) (s t : State) (ctl : Control),
    s.ctl = some ctl → ctl.busy = false → ctl.doutValid = false →
    p.rst = true ∨ ¬ Accepted p ctl → clockEdge p s = .next t →
    ∃ ctl', t.ctl = some ctl' ∧ ctl'.busy = false ∧ ctl'.doutValid = false

/-- Rules R220 and R166: contents that no rule lets the host use never show. Two states that agree where
rule R220 lets a register be used take every step alike, and agree so again; at reset that is every state
whatever KEY, L, R, C, D and DOUT physically hold. -/
def Obligations.UnusedContentsNeverShow : Prop :=
  ∀ s s' : State, SameWhereUsed s s' →
    (∀ t, step s = .next t → ∃ t', step s' = .next t' ∧ SameWhereUsed t t') ∧
    (∀ f, step s = .fault f → step s' = .fault f)

/-- Rules R104 and R21: the parity bits of KEY, bits 0, 8, ..., 56, never show. Two states whose keys agree in
every other bit, and that agree in everything else, take every step alike, with the same response, status, DOUT
and samples, and differ at most in those bits again. -/
def Obligations.KeyParityNeverShows : Prop :=
  ∀ s s' : State, SameButParity s s' →
    (∀ t, step s = .next t → ∃ t', step s' = .next t' ∧ SameButParity t t' ∧ t.resp = t'.resp ∧
      t.status = t'.status ∧ t.dout = t'.dout ∧ t.samples = t'.samples) ∧
    (∀ f, step s = .fault f → step s' = .fault f)

/-- Rule R223, the boot sequence, with R68, R191 and R224: from any state, the power-on state included, a reset
step, LDKEY, ENC or DEC, a WAIT and a READ sample `DES(mode, key, block)`. The WAIT takes 17 steps, so the READ
falls at the start of the step after the twentieth, where the host's program ends (R191). The model states the
sample twice: by `programEnd`, which performs a READ that stands after the last step (log entry 16, DEDUCED),
and by a further step, the 21st, in which the host presents nothing because its list has ended (log entry 4,
DESIGN CHOICE). -/
def Obligations.BootSequenceYieldsTheResult : Prop :=
  ∀ (s : State) (mode : Mode) (key : Key) (block : Block),
    s.script = [.drive Pins.reset, HostAct.present (encode (.ldkey key)),
      HostAct.present (encode (blockInstr mode block)), .wait, .read] →
    (∃ t : State, Host.Core.run Sys2Proof.core 20 s = .next t ∧ t.script = [.wait, .read] ∧
      t.dout = some (des mode key block) ∧ t.showsResult = true ∧ t.samples = s.samples ∧
      t.programEnd =
        .ok (some { t with script := [], samples := s.samples ++ [some (des mode key block)] })) ∧
    (∃ t : State, Host.Core.run Sys2Proof.core 21 s = .next t ∧ t.script = [] ∧
      t.samples = s.samples ++ [some (des mode key block)])
end

