-- ==== Sys2Proof/Laws/Asm.lean ====
section
/-! SUPPORT. What the assembler's readers of digits can do (R68). -/

namespace Sys2Proof.Machine

/-- A code has a value in a run of digits exactly where it is one of the run's codes. -/
theorem valueInRun_eq_some {code count value v : Nat} {first : Char} :
    valueInRun code (first, count, value) = some v ↔
      first.toNat ≤ code ∧ code < first.toNat + count ∧ v = value + (code - first.toNat) := by
  simp only [valueInRun, Option.ite_none_right_eq_some, Option.some.injEq]
  omega

/-- Digits that all have a value write the number that the values are in the base, after `start`. -/
theorem digitsValue_of_values (base : Nat) (digit : Char → Option Nat) (start : Nat) (digits : List Char)
    (values : List Nat) (h : digits.map digit = values.map some) :
    digitsValue base digit start digits =
      some (start * base ^ digits.length + Nat.ofDigits base values.reverse) := by
  induction digits generalizing start values with
  | nil =>
    obtain rfl : values = [] := by simpa using h.symm
    simp [digitsValue]
  | cons c cs ih =>
    cases values with
    | nil => simp at h
    | cons v vs =>
      obtain ⟨hc, hcs⟩ : digit c = some v ∧ cs.map digit = vs.map some := by simpa using h
      have hlen : cs.length = vs.length := by simpa using congrArg List.length hcs
      simp only [digitsValue, hc, ih _ _ hcs, List.reverse_cons, Nat.ofDigits_append, hlen,
        List.length_reverse, List.length_cons, Nat.ofDigits_singleton]
      ring_nf

/-- Where digits write a number, each of them has a value. -/
theorem values_of_digitsValue {base : Nat} {digit : Char → Option Nat} {start n : Nat}
    {digits : List Char} (h : digitsValue base digit start digits = some n) :
    ∃ values : List Nat, digits.map digit = values.map some := by
  induction digits generalizing start with
  | nil => exact ⟨[], rfl⟩
  | cons c cs ih =>
    rw [digitsValue] at h
    cases hc : digit c with
    | none => simp [hc] at h
    | some v =>
      obtain ⟨vs, e⟩ := ih (by simpa [hc] using h)
      exact ⟨v :: vs, by simp [hc, e]⟩

end Sys2Proof.Machine
end

