-- ==== Sys2Proof/Laws/Decode.lean ====
section
/-! SUPPORT. The fields of an encoded command and of the word on the ports (R61). -/

namespace Sys2Proof

/-- The bits of a command word made of an opcode and an operand (R61). -/
theorem getLsbD_op_append (op : BitVec 2) (data : BitVec 64) (i : Nat) :
    (op ++ data : CommandWord).getLsbD i = if i < 64 then data.getLsbD i else op.getLsbD (i - 64) :=
  BitVec.getLsbD_append

/-- A word made of an opcode and an operand has that opcode. -/
@[simp] theorem opField_append (op : BitVec 2) (data : BitVec 64) : opField (op ++ data) = op := by
  apply BitVec.eq_of_getLsbD_eq
  intro i hi
  simp [opField, getLsbD_op_append, hi]

/-- A word made of an opcode and an operand has that operand. -/
@[simp] theorem dataField_append (op : BitVec 2) (data : BitVec 64) : dataField (op ++ data) = data := by
  apply BitVec.eq_of_getLsbD_eq
  intro i hi
  simp [dataField, getLsbD_op_append, hi]

/-- A command word is its opcode and its operand. -/
theorem opField_append_dataField (w : CommandWord) : opField w ++ dataField w = w := by
  apply BitVec.eq_of_getLsbD_eq
  intro i hi
  rw [getLsbD_op_append]
  by_cases h : i < 64
  · simp [dataField, h]
  · have : i - 64 < 2 := by omega
    simp [opField, h, this, show 64 + (i - 64) = i by omega]

/-- The four opcodes are all there are (R62, R65). -/
theorem opcode_cases (op : BitVec 2) :
    op = 0b00#2 ∨ op = 0b01#2 ∨ op = 0b10#2 ∨ op = 0b11#2 := by
  revert op; decide

/-- What the decoder does, by the fields of the word. -/
theorem decode_append (op : BitVec 2) (data : BitVec 64) :
    decode (op ++ data) =
      if op = 0b00#2 then .nop data else if op = 0b01#2 then .ldkey data
      else if op = 0b10#2 then .enc data else .dec data := by
  simp [decode]

namespace Machine

/-- The word that `Pins.present` puts on the ports. -/
@[simp] theorem word_present (w : CommandWord) : (Pins.present w).word = w :=
  opField_append_dataField w

@[simp] theorem rst_present (w : CommandWord) : (Pins.present w).rst = false := rfl
@[simp] theorem cmdValid_present (w : CommandWord) : (Pins.present w).cmdValid = true := rfl

end Machine

end Sys2Proof
end

