-- ==== Sys2Proof/Laws/State.lean ====
section
/-! SUPPORT. One lemma for each field of State after each update, so that no later proof unfolds an update
(State.respond, State.afterTurn, State.withFetchWord, State.withProgram, resetStep, accept, roundStep,
finalStep). -/

namespace Sys2Proof.Machine

@[simp] theorem respond_key (s : State) (x : Resp) : (s.respond x).key = s.key := rfl
@[simp] theorem respond_l (s : State) (x : Resp) : (s.respond x).l = s.l := rfl
@[simp] theorem respond_r (s : State) (x : Resp) : (s.respond x).r = s.r := rfl
@[simp] theorem respond_c (s : State) (x : Resp) : (s.respond x).c = s.c := rfl
@[simp] theorem respond_d (s : State) (x : Resp) : (s.respond x).d = s.d := rfl
@[simp] theorem respond_dout (s : State) (x : Resp) : (s.respond x).dout = s.dout := rfl
@[simp] theorem respond_ctl (s : State) (x : Resp) : (s.respond x).ctl = s.ctl := rfl
@[simp] theorem respond_resp (s : State) (x : Resp) : (s.respond x).resp = x := rfl
@[simp] theorem respond_script (s : State) (x : Resp) : (s.respond x).script = s.script := rfl
@[simp] theorem respond_samples (s : State) (x : Resp) : (s.respond x).samples = s.samples := rfl

@[simp] theorem afterTurn_key (s : State) (h : HostTurn) : (s.afterTurn h).key = s.key := rfl
@[simp] theorem afterTurn_l (s : State) (h : HostTurn) : (s.afterTurn h).l = s.l := rfl
@[simp] theorem afterTurn_r (s : State) (h : HostTurn) : (s.afterTurn h).r = s.r := rfl
@[simp] theorem afterTurn_c (s : State) (h : HostTurn) : (s.afterTurn h).c = s.c := rfl
@[simp] theorem afterTurn_d (s : State) (h : HostTurn) : (s.afterTurn h).d = s.d := rfl
@[simp] theorem afterTurn_dout (s : State) (h : HostTurn) : (s.afterTurn h).dout = s.dout := rfl
@[simp] theorem afterTurn_ctl (s : State) (h : HostTurn) : (s.afterTurn h).ctl = s.ctl := rfl
@[simp] theorem afterTurn_resp (s : State) (h : HostTurn) : (s.afterTurn h).resp = s.resp := rfl
@[simp] theorem afterTurn_script (s : State) (h : HostTurn) :
    (s.afterTurn h).script = h.script := rfl
@[simp] theorem afterTurn_samples (s : State) (h : HostTurn) :
    (s.afterTurn h).samples = h.samples := rfl

@[simp] theorem withFetchWord_key (s : State) (nbits w : Nat) :
    (s.withFetchWord nbits w).key = s.key := rfl
@[simp] theorem withFetchWord_l (s : State) (nbits w : Nat) :
    (s.withFetchWord nbits w).l = s.l := rfl
@[simp] theorem withFetchWord_r (s : State) (nbits w : Nat) :
    (s.withFetchWord nbits w).r = s.r := rfl
@[simp] theorem withFetchWord_c (s : State) (nbits w : Nat) :
    (s.withFetchWord nbits w).c = s.c := rfl
@[simp] theorem withFetchWord_d (s : State) (nbits w : Nat) :
    (s.withFetchWord nbits w).d = s.d := rfl
@[simp] theorem withFetchWord_dout (s : State) (nbits w : Nat) :
    (s.withFetchWord nbits w).dout = s.dout := rfl
@[simp] theorem withFetchWord_ctl (s : State) (nbits w : Nat) :
    (s.withFetchWord nbits w).ctl = s.ctl := rfl
@[simp] theorem withFetchWord_resp (s : State) (nbits w : Nat) :
    (s.withFetchWord nbits w).resp = s.resp := rfl
@[simp] theorem withFetchWord_script (s : State) (nbits w : Nat) :
    (s.withFetchWord nbits w).script = HostAct.present (BitVec.ofNat 66 (w % 2 ^ nbits)) :: s.script := rfl
@[simp] theorem withFetchWord_samples (s : State) (nbits w : Nat) :
    (s.withFetchWord nbits w).samples = s.samples := rfl

@[simp] theorem withProgram_key (s : State) (lines : List Line) :
    (s.withProgram lines).key = s.key := rfl
@[simp] theorem withProgram_l (s : State) (lines : List Line) : (s.withProgram lines).l = s.l := rfl
@[simp] theorem withProgram_r (s : State) (lines : List Line) : (s.withProgram lines).r = s.r := rfl
@[simp] theorem withProgram_c (s : State) (lines : List Line) : (s.withProgram lines).c = s.c := rfl
@[simp] theorem withProgram_d (s : State) (lines : List Line) : (s.withProgram lines).d = s.d := rfl
@[simp] theorem withProgram_dout (s : State) (lines : List Line) :
    (s.withProgram lines).dout = s.dout := rfl
@[simp] theorem withProgram_ctl (s : State) (lines : List Line) :
    (s.withProgram lines).ctl = s.ctl := rfl
@[simp] theorem withProgram_resp (s : State) (lines : List Line) :
    (s.withProgram lines).resp = s.resp := rfl
@[simp] theorem withProgram_script (s : State) (lines : List Line) :
    (s.withProgram lines).script = programActions lines := rfl
@[simp] theorem withProgram_samples (s : State) (lines : List Line) :
    (s.withProgram lines).samples = s.samples := rfl

@[simp] theorem resetStep_key (v : Bool) (s : State) : (resetStep v s).key = none := rfl
@[simp] theorem resetStep_l (v : Bool) (s : State) : (resetStep v s).l = none := rfl
@[simp] theorem resetStep_r (v : Bool) (s : State) : (resetStep v s).r = none := rfl
@[simp] theorem resetStep_c (v : Bool) (s : State) : (resetStep v s).c = none := rfl
@[simp] theorem resetStep_d (v : Bool) (s : State) : (resetStep v s).d = none := rfl
@[simp] theorem resetStep_dout (v : Bool) (s : State) : (resetStep v s).dout = none := rfl
@[simp] theorem resetStep_ctl (v : Bool) (s : State) :
    (resetStep v s).ctl = some Control.reset := rfl
@[simp] theorem resetStep_resp (v : Bool) (s : State) :
    (resetStep v s).resp = if v then .rst else .ok := rfl
@[simp] theorem resetStep_script (v : Bool) (s : State) : (resetStep v s).script = s.script := rfl
@[simp] theorem resetStep_samples (v : Bool) (s : State) :
    (resetStep v s).samples = s.samples := rfl

@[simp] theorem accept_key (m : Mode) (b : Block) (ctl : Control) (s : State) :
    (accept m b ctl s).key = s.key := rfl
@[simp] theorem accept_l (m : Mode) (b : Block) (ctl : Control) (s : State) :
    (accept m b ctl s).l = some (leftHalf (ip64 b)) := rfl
@[simp] theorem accept_r (m : Mode) (b : Block) (ctl : Control) (s : State) :
    (accept m b ctl s).r = some (rightHalf (ip64 b)) := rfl
@[simp] theorem accept_c (m : Mode) (b : Block) (ctl : Control) (s : State) :
    (accept m b ctl s).c = s.key.map fun k => highHalf (pc1 k) := rfl
@[simp] theorem accept_d (m : Mode) (b : Block) (ctl : Control) (s : State) :
    (accept m b ctl s).d = s.key.map fun k => lowHalf (pc1 k) := rfl
@[simp] theorem accept_dout (m : Mode) (b : Block) (ctl : Control) (s : State) :
    (accept m b ctl s).dout = s.dout := rfl
@[simp] theorem accept_ctl (m : Mode) (b : Block) (ctl : Control) (s : State) :
    (accept m b ctl s).ctl = some { ctl with mode := m, round := 0, busy := true, doutValid := false } := rfl
@[simp] theorem accept_resp (m : Mode) (b : Block) (ctl : Control) (s : State) :
    (accept m b ctl s).resp = s.resp := rfl
@[simp] theorem accept_script (m : Mode) (b : Block) (ctl : Control) (s : State) :
    (accept m b ctl s).script = s.script := rfl
@[simp] theorem accept_samples (m : Mode) (b : Block) (ctl : Control) (s : State) :
    (accept m b ctl s).samples = s.samples := rfl

@[simp] theorem roundStep_key (ctl : Control) (s : State) : (roundStep ctl s).key = s.key := rfl
@[simp] theorem roundStep_l (ctl : Control) (s : State) : (roundStep ctl s).l = s.r := rfl
@[simp] theorem roundStep_r (ctl : Control) (s : State) :
    (roundStep ctl s).r = Reg.map2 (· ^^^ ·) s.l
      (Reg.map2 roundF s.r (Reg.map2 subkeyOf (s.c.map (rotateHalf ctl.mode ctl.round.toNat))
        (s.d.map (rotateHalf ctl.mode ctl.round.toNat)))) := rfl
@[simp] theorem roundStep_c (ctl : Control) (s : State) :
    (roundStep ctl s).c = s.c.map (rotateHalf ctl.mode ctl.round.toNat) := rfl
@[simp] theorem roundStep_d (ctl : Control) (s : State) :
    (roundStep ctl s).d = s.d.map (rotateHalf ctl.mode ctl.round.toNat) := rfl
@[simp] theorem roundStep_dout (ctl : Control) (s : State) : (roundStep ctl s).dout = s.dout := rfl
@[simp] theorem roundStep_ctl (ctl : Control) (s : State) :
    (roundStep ctl s).ctl = some { ctl with round := ctl.round + 1 } := rfl
@[simp] theorem roundStep_resp (ctl : Control) (s : State) : (roundStep ctl s).resp = s.resp := rfl
@[simp] theorem roundStep_script (ctl : Control) (s : State) :
    (roundStep ctl s).script = s.script := rfl
@[simp] theorem roundStep_samples (ctl : Control) (s : State) :
    (roundStep ctl s).samples = s.samples := rfl

@[simp] theorem finalStep_key (ctl : Control) (s : State) : (finalStep ctl s).key = s.key := rfl
@[simp] theorem finalStep_l (ctl : Control) (s : State) : (finalStep ctl s).l = s.l := rfl
@[simp] theorem finalStep_r (ctl : Control) (s : State) : (finalStep ctl s).r = s.r := rfl
@[simp] theorem finalStep_c (ctl : Control) (s : State) : (finalStep ctl s).c = s.c := rfl
@[simp] theorem finalStep_d (ctl : Control) (s : State) : (finalStep ctl s).d = s.d := rfl
@[simp] theorem finalStep_dout (ctl : Control) (s : State) :
    (finalStep ctl s).dout = Reg.map2 terminal s.l s.r := rfl
@[simp] theorem finalStep_ctl (ctl : Control) (s : State) :
    (finalStep ctl s).ctl = some { ctl with doutValid := true, busy := false, round := 0 } := rfl
@[simp] theorem finalStep_resp (ctl : Control) (s : State) : (finalStep ctl s).resp = s.resp := rfl
@[simp] theorem finalStep_script (ctl : Control) (s : State) :
    (finalStep ctl s).script = s.script := rfl
@[simp] theorem finalStep_samples (ctl : Control) (s : State) :
    (finalStep ctl s).samples = s.samples := rfl

/-- Two states are equal when their ten fields are. -/
theorem State.ext_fields {s t : State} (hkey : s.key = t.key) (hl : s.l = t.l) (hr : s.r = t.r)
    (hc : s.c = t.c) (hd : s.d = t.d) (hdout : s.dout = t.dout) (hctl : s.ctl = t.ctl)
    (hresp : s.resp = t.resp) (hscript : s.script = t.script) (hsamples : s.samples = t.samples) :
    s = t := by
  cases s; cases t; simp_all

end Sys2Proof.Machine
end

