-- ==== Sys2Proof/Laws/Ops.lean ====
section
/-! SUPPORT. One lemma for each shared operation that says once everything it can do: a computation over
`⊥`, the choice of rule R180, the engine's step, a clock edge and the host's turn. -/

namespace Sys2Proof.Machine

@[simp] theorem map2_some {a b c : Nat} (f : BitVec a → BitVec b → BitVec c) (x : BitVec a)
    (y : BitVec b) : Reg.map2 f (some x) (some y) = some (f x y) := rfl

@[simp] theorem map2_none_left {a b c : Nat} (f : BitVec a → BitVec b → BitVec c) (y : Reg b) :
    Reg.map2 f none y = none := rfl

@[simp] theorem map2_none_right {a b c : Nat} (f : BitVec a → BitVec b → BitVec c) (x : Reg a) :
    Reg.map2 f x none = none := by cases x <;> rfl

/-- The choice of rule R180 in a state that has been reset. -/
theorem commandStep_of_ctl {s : State} {ctl : Control} (h : s.ctl = some ctl) (whenBusy : Resp)
    (idle : Control → State) :
    commandStep whenBusy idle s =
      .next (if ctl.busy then (engineStep ctl s).respond whenBusy else idle ctl) := by
  simp [commandStep, withControl, h]

/-- The choice of rule R180 before the first reset (R222). -/
theorem commandStep_before_reset {s : State} (h : s.ctl = none) (whenBusy : Resp)
    (idle : Control → State) : commandStep whenBusy idle s = .fault .stepBeforeReset := by
  simp [commandStep, withControl, h]

/-- Everything the choice of rule R180 can do. -/
theorem commandStep_next {whenBusy : Resp} {idle : Control → State} {s t : State}
    (h : commandStep whenBusy idle s = .next t) :
    ∃ ctl, s.ctl = some ctl ∧
      ((ctl.busy = true ∧ t = (engineStep ctl s).respond whenBusy) ∨
        (ctl.busy = false ∧ t = idle ctl)) := by
  cases hs : s.ctl with
  | none => rw [commandStep_before_reset hs] at h; cases h
  | some ctl =>
    rw [commandStep_of_ctl hs] at h
    cases hb : ctl.busy <;> simp [hb] at h <;> exact ⟨ctl, rfl, by simp [hb, ← h]⟩

/-- Everything the engine's own step can do (R185, R186). -/
theorem engineStep_cases (ctl : Control) (s : State) :
    (ctl.round.toNat < 16 ∧ engineStep ctl s = roundStep ctl s) ∨
      (16 ≤ ctl.round.toNat ∧ engineStep ctl s = finalStep ctl s) := by
  unfold engineStep Config.rounds
  by_cases h : ctl.round.toNat < 16
  · exact .inl ⟨h, if_pos h⟩
  · exact .inr ⟨Nat.le_of_not_lt h, if_neg h⟩

/-- The engine's step leaves the key alone. -/
@[simp] theorem engineStep_key (ctl : Control) (s : State) : (engineStep ctl s).key = s.key := by
  obtain ⟨-, h⟩ | ⟨-, h⟩ := engineStep_cases ctl s <;> simp [h]

@[simp] theorem engineStep_script (ctl : Control) (s : State) :
    (engineStep ctl s).script = s.script := by
  obtain ⟨-, h⟩ | ⟨-, h⟩ := engineStep_cases ctl s <;> simp [h]

@[simp] theorem engineStep_samples (ctl : Control) (s : State) :
    (engineStep ctl s).samples = s.samples := by
  obtain ⟨-, h⟩ | ⟨-, h⟩ := engineStep_cases ctl s <;> simp [h]

/-- What a command does with no block in flight (R181 to R184, R188), the control registers being `ctl`. -/
def idleEffect (i : Instr) (s : State) (ctl : Control) : State :=
  match i with
  | .nop _ => s.respond .ok
  | .ldkey key => ({ s with key := some key, ctl := some { ctl with keyValid := true } }).respond .ok
  | .enc block =>
    if ctl.keyValid then (accept .encrypt block ctl s).respond .ok else s.respond .noKey
  | .dec block =>
    if ctl.keyValid then (accept .decrypt block ctl s).respond .ok else s.respond .noKey

/-- Every command is the choice of rule R180 with its own response while busy and its own effect while
idle. -/
theorem exec_eq_commandStep (i : Instr) (s : State) :
    exec i s = commandStep (if i.op = 0b00#2 then .ok else .busy) (idleEffect i s) s := by
  cases i <;> rfl

/-- Every command in a state that has been reset (R180). -/
theorem exec_of_ctl {s : State} {ctl : Control} (h : s.ctl = some ctl) (i : Instr) :
    exec i s = .next (if ctl.busy then
      (engineStep ctl s).respond (if i.op = 0b00#2 then .ok else .busy) else idleEffect i s ctl) := by
  rw [exec_eq_commandStep, commandStep_of_ctl h]

/-- A clock edge with `rst = 1` (R220). -/
theorem clockEdge_reset {p : Pins} (h : p.rst = true) (s : State) :
    clockEdge p s = .next (resetStep p.cmdValid s) := by simp [clockEdge, h]

/-- A clock edge with a command and no reset. -/
theorem clockEdge_command {p : Pins} (h : p.rst = false) (hv : p.cmdValid = true) (s : State) :
    clockEdge p s = exec (decode p.word) s := by simp [clockEdge, h, hv]

/-- A clock edge with neither. -/
theorem clockEdge_idle {p : Pins} (h : p.rst = false) (hv : p.cmdValid = false) (s : State) :
    clockEdge p s = idleStep s := by simp [clockEdge, h, hv]

/-- While a block is in flight and there is no reset, an edge is the engine's step and a response (R180). -/
theorem clockEdge_busy {p : Pins} {s : State} {ctl : Control} (h : p.rst = false)
    (hs : s.ctl = some ctl) (hb : ctl.busy = true) :
    clockEdge p s = .next ((engineStep ctl s).respond
      (if p.cmdValid = true ∧ p.cmdOp ≠ 0b00#2 then .busy else .ok)) := by
  cases hv : p.cmdValid with
  | false => simp [clockEdge_idle h hv, idleStep, commandStep_of_ctl hs, hb]
  | true =>
    rw [clockEdge_command h hv, exec_eq_commandStep, commandStep_of_ctl hs]
    simp only [hb, if_true, Pins.word, decode_append]
    obtain ho | ho | ho | ho := opcode_cases p.cmdOp <;> simp [ho, Instr.op]

/-- Everything a clock edge can do (R180): it is a reset; or the core has been reset before, and the engine
advances, or nothing is written, or a key is loaded, or a block is accepted. -/
theorem clockEdge_next {p : Pins} {s t : State} (h : clockEdge p s = .next t) :
    (p.rst = true ∧ t = resetStep p.cmdValid s) ∨
    (p.rst = false ∧ ∃ ctl, s.ctl = some ctl ∧
      ((ctl.busy = true ∧ ∃ x, t = (engineStep ctl s).respond x) ∨
       (ctl.busy = false ∧ ∃ x, t = s.respond x) ∨
       (KeyAccepted p ctl ∧
        t = ({ s with key := some p.cmdData, ctl := some { ctl with keyValid := true } }).respond .ok) ∨
       (Accepted p ctl ∧ ∃ mode, t = (accept mode p.cmdData ctl s).respond .ok))) := by
  cases hr : p.rst with
  | true => rw [clockEdge_reset hr] at h; cases h; exact .inl ⟨rfl, rfl⟩
  | false =>
    refine .inr ⟨rfl, ?_⟩
    cases hv : p.cmdValid with
    | false =>
      rw [clockEdge_idle hr hv] at h
      obtain ⟨ctl, hs, ⟨hb, rfl⟩ | ⟨hb, rfl⟩⟩ := commandStep_next h
      · exact ⟨ctl, hs, .inl ⟨hb, _, rfl⟩⟩
      · exact ⟨ctl, hs, .inr (.inl ⟨hb, _, rfl⟩)⟩
    | true =>
      rw [clockEdge_command hr hv, exec_eq_commandStep] at h
      obtain ⟨ctl, hs, ⟨hb, rfl⟩ | ⟨hb, rfl⟩⟩ := commandStep_next h
      · exact ⟨ctl, hs, .inl ⟨hb, _, rfl⟩⟩
      · refine ⟨ctl, hs, ?_⟩
        simp only [Pins.word, decode_append, idleEffect]
        obtain ho | ho | ho | ho := opcode_cases p.cmdOp <;> simp only [ho]
        · exact .inr (.inl ⟨hb, _, rfl⟩)
        · exact .inr (.inr (.inl ⟨⟨hv, ho, hb⟩, rfl⟩))
        · cases hk : ctl.keyValid
          · exact .inr (.inl ⟨hb, .noKey, by simp⟩)
          · exact .inr (.inr (.inr ⟨⟨hv, .inl ho, hb, hk⟩, .encrypt, by simp⟩))
        · cases hk : ctl.keyValid
          · exact .inr (.inl ⟨hb, .noKey, by simp⟩)
          · exact .inr (.inr (.inr ⟨⟨hv, .inr ho, hb, hk⟩, .decrypt, by simp⟩))

/-- A step whose host action drives the ports is that clock edge. -/
theorem step_drive {s : State} {p : Pins} {rest : List HostAct} (h : s.script = .drive p :: rest) :
    step s = clockEdge p { s with script := rest } := by
  simp [step, h, hostTurn, State.afterTurn]

/-- The engine's step does not touch the script. -/
theorem engineStep_withScript (ctl : Control) (s : State) (rest : List HostAct) :
    engineStep ctl { s with script := rest } = { engineStep ctl s with script := rest } := by
  obtain ⟨h, e⟩ | ⟨h, e⟩ := engineStep_cases ctl s
  · rw [e, engineStep, if_pos (show _ < Config.rounds from h)]; rfl
  · rw [e, engineStep, if_neg (show ¬_ < Config.rounds from Nat.not_lt.mpr h)]; rfl

/-- A step whose host action drives the ports with no reset while a block is in flight (R180). -/
theorem step_drive_busy {s : State} {p : Pins} {rest : List HostAct} {ctl : Control}
    (h : s.script = .drive p :: rest) (hr : p.rst = false) (hs : s.ctl = some ctl)
    (hb : ctl.busy = true) :
    step s = .next (({ engineStep ctl s with script := rest } : State).respond
      (if p.cmdValid = true ∧ p.cmdOp ≠ 0b00#2 then .busy else .ok)) := by
  rw [step_drive h, ← engineStep_withScript]
  exact clockEdge_busy hr hs hb

/-- A step whose host action presents a command with no reset while no block is in flight (R180). -/
theorem step_drive_idle {s : State} {p : Pins} {rest : List HostAct} {ctl : Control}
    (h : s.script = .drive p :: rest) (hr : p.rst = false) (hv : p.cmdValid = true)
    (hs : s.ctl = some ctl) (hb : ctl.busy = false) :
    step s = .next (idleEffect (decode p.word) { s with script := rest } ctl) := by
  have hs' : ({ s with script := rest } : State).ctl = some ctl := hs
  rw [step_drive h, clockEdge_command hr hv, exec_of_ctl hs', hb]
  rfl

/-- A step whose host action presents no command and no reset while no block is in flight (R180). -/
theorem step_drive_quiet {s : State} {p : Pins} {rest : List HostAct} {ctl : Control}
    (h : s.script = .drive p :: rest) (hr : p.rst = false) (hv : p.cmdValid = false)
    (hs : s.ctl = some ctl) (hb : ctl.busy = false) :
    step s = .next (({ s with script := rest } : State).respond .ok) := by
  have hs' : ({ s with script := rest } : State).ctl = some ctl := hs
  rw [step_drive h, clockEdge_idle hr hv, idleStep, commandStep_of_ctl hs', hb]
  rfl

/-- A step of a host with nothing left to do is one with no command. -/
theorem step_no_script {s : State} (h : s.script = []) : step s = clockEdge Pins.quiet s := by
  have : s.afterTurn ⟨Pins.quiet, [], s.samples⟩ = s := by cases s; simp_all [State.afterTurn]
  simp [step, h, hostTurn, this]

/-- Everything a step that answers a next state does: the host's turn leaves the core's registers alone
(R46), and then comes one clock edge. -/
theorem step_next {s t : State} (h : step s = .next t) :
    ∃ turn, hostTurn s.showsResult s.dout s.samples s.script = .ok turn ∧
      clockEdge turn.pins (s.afterTurn turn) = .next t := by
  unfold step at h
  cases hturn : hostTurn s.showsResult s.dout s.samples s.script with
  | error e => simp [hturn] at h
  | ok turn => exact ⟨turn, rfl, by simpa [hturn] using h⟩

/-- Where the host's turn is a fault, it is a READ with no valid result (R226). -/
theorem hostTurn_error {v : Bool} {dout : Reg 64} {samples : List (Reg 64)} {script : List HostAct}
    {f : Fault} (h : hostTurn v dout samples script = .error f) :
    f = .readWhileInvalid ∧ HostAct.read ∈ script ∧ v = false := by
  induction script generalizing samples with
  | nil => simp [hostTurn] at h
  | cons a rest ih =>
    cases a with
    | drive p => simp [hostTurn] at h
    | wait =>
      cases v <;> simp [hostTurn] at h
      obtain ⟨hf, hm, hv⟩ := ih h
      exact ⟨hf, by simp [hm], hv⟩
    | read =>
      cases v <;> simp [hostTurn] at h
      · exact ⟨h.symm, by simp, rfl⟩
      · obtain ⟨hf, hm, hv⟩ := ih h
        exact ⟨hf, by simp, hv⟩

end Sys2Proof.Machine
end

