-- ==== Sys2Proof/Laws/PerInstr.lean ====
section
/-! SUPPORT. Statements made once per constructor of Instr. -/

namespace Sys2Proof.Laws

/-- The command's word is covered by the opcode table's row of its mnemonic (R62): the word with the operand
bits masked off is the row's pattern. -/
def OpcodeRow.Statement (i : Instr) : Prop :=
  ∀ row ∈ opcodeTable, row.mnemonic = i.mnemonic → row.covers (encode i) = true

/-- Which bits the opcode table's mask keeps: 64 and 65. -/
theorem getLsbD_opcode_mask :
    ∀ i, i < 66 → (0x30000000000000000 : CommandWord).getLsbD i = decide (64 ≤ i) := by decide

/-- Masking a word leaves its opcode in place and nothing else. -/
theorem masked_word (w : CommandWord) :
    w &&& 0x30000000000000000 = (opField w ++ (0 : BitVec 64) : CommandWord) := by
  apply BitVec.eq_of_getLsbD_eq
  intro i hi
  rw [BitVec.getLsbD_and, getLsbD_opcode_mask i hi, getLsbD_op_append]
  by_cases h : i < 64
  · simp [h, Nat.not_le.mpr h]
  · have : i - 64 < 2 := by omega
    simp [opField, h, this, Nat.le_of_not_lt h, show 64 + (i - 64) = i by omega]

/-- Whether a row of the table covers an encoded command is a matter of its opcode alone (R62). -/
theorem covers_encode (i : Instr) (row : OpcodeRow) (h : row.mask = 0x30000000000000000) :
    row.covers (encode i) = ((i.op ++ (0 : BitVec 64) : CommandWord) == row.pattern) := by
  rw [Sys2Proof.OpcodeRow.covers, h, masked_word, encode, opField_append]

/-- The rows of the table are the four of R62. -/
theorem row_cases {row : OpcodeRow} (h : row ∈ opcodeTable) :
    row = ⟨"NOP", 0x30000000000000000, 0x00000000000000000⟩ ∨
    row = ⟨"LDKEY", 0x30000000000000000, 0x10000000000000000⟩ ∨
    row = ⟨"ENC", 0x30000000000000000, 0x20000000000000000⟩ ∨
    row = ⟨"DEC", 0x30000000000000000, 0x30000000000000000⟩ := by
  simpa [opcodeTable] using h

theorem OpcodeRow.nop (data : BitVec 64) : OpcodeRow.Statement (.nop data) := by
  intro row hrow hname
  obtain rfl | rfl | rfl | rfl := row_cases hrow <;> simp [Instr.mnemonic] at hname
  rw [covers_encode _ _ rfl]
  simp only [Instr.op]
  decide

theorem OpcodeRow.ldkey (key : Key) : OpcodeRow.Statement (.ldkey key) := by
  intro row hrow hname
  obtain rfl | rfl | rfl | rfl := row_cases hrow <;> simp [Instr.mnemonic] at hname
  rw [covers_encode _ _ rfl]
  simp only [Instr.op]
  decide

theorem OpcodeRow.enc (block : Block) : OpcodeRow.Statement (.enc block) := by
  intro row hrow hname
  obtain rfl | rfl | rfl | rfl := row_cases hrow <;> simp [Instr.mnemonic] at hname
  rw [covers_encode _ _ rfl]
  simp only [Instr.op]
  decide

theorem OpcodeRow.dec (block : Block) : OpcodeRow.Statement (.dec block) := by
  intro row hrow hname
  obtain rfl | rfl | rfl | rfl := row_cases hrow <;> simp [Instr.mnemonic] at hname
  rw [covers_encode _ _ rfl]
  simp only [Instr.op]
  decide

end Sys2Proof.Laws
end

