-- ==== Sys2Proof/Laws/Permute.lean ====
section
/-! SUPPORT. The bits of the primitive `permute` (R100), of the pieces of a word and of a concatenation, and
the lengths of the six tables (R102). -/

namespace Sys2Proof.Machine

/-- What `permute` is, bit by bit: past the table's end and past the width there are zeros. -/
theorem getLsbD_permute (n : Nat) (table : List Nat) {m : Nat} (x : BitVec m) (i : Nat) :
    (permute n table x).getLsbD i = (decide (i < n) && (table[i]?.map x.getLsbD).getD false) := by
  simp [permute, BitVec.getLsbD_setWidth, BitVec.getLsbD_ofBoolListLE, List.getD_eq_getElem?_getD]

/-- Two permuted words are equal when the named bits are. -/
theorem permute_congr (n : Nat) (table : List Nat) {m k : Nat} (x : BitVec m) (y : BitVec k)
    (h : ∀ j ∈ table, x.getLsbD j = y.getLsbD j) : permute n table x = permute n table y := by
  have : (table.map fun i => x.getLsbD i) = table.map fun i => y.getLsbD i :=
    List.map_congr_left h
  rw [permute, permute, this]

/-- The complement of a permuted word, for a table that fills the width and stays in range. -/
theorem permute_not (n : Nat) (table : List Nat) {m : Nat} (x : BitVec m) (hn : table.length = n)
    (hm : ∀ j ∈ table, j < m) : permute n table (~~~x) = ~~~permute n table x := by
  apply BitVec.eq_of_getLsbD_eq
  intro i hi
  have hi' : i < table.length := hn ▸ hi
  have := hm table[i] (List.getElem_mem hi')
  rw [getLsbD_permute, BitVec.getLsbD_not, getLsbD_permute]
  simp [hi, hi', this]

theorem length_IP_L : Tables.IP_L.length = 64 := rfl
theorem length_FP_L : Tables.FP_L.length = 64 := rfl
theorem length_E_L : Tables.E_L.length = 48 := rfl
theorem length_P_L : Tables.P_L.length = 32 := rfl
theorem length_PC1_L : Tables.PC1_L.length = 56 := rfl
theorem length_PC2_L : Tables.PC2_L.length = 48 := rfl

/-- The bits of a permuted key made of its halves (R140). -/
theorem getLsbD_cd_append (c d : HalfKey) (i : Nat) :
    (c ++ d : PermutedKey).getLsbD i = if i < 28 then d.getLsbD i else c.getLsbD (i - 28) :=
  BitVec.getLsbD_append

/-- The bits of a block made of its halves (R161). -/
theorem getLsbD_lr_append (l r : Half) (i : Nat) :
    (l ++ r : BitVec 64).getLsbD i = if i < 32 then r.getLsbD i else l.getLsbD (i - 32) :=
  BitVec.getLsbD_append

/-- The two halves of the permuted key, put together again (R140). -/
theorem highHalf_append_lowHalf (cd : PermutedKey) : highHalf cd ++ lowHalf cd = cd := by
  apply BitVec.eq_of_getLsbD_eq
  intro i hi
  rw [getLsbD_cd_append]
  by_cases h : i < 28
  · simp [lowHalf, h]
  · have : i - 28 < 28 := by omega
    simp [highHalf, h, this, show 28 + (i - 28) = i by omega]

/-- The left half of a concatenation (R161, R163). -/
@[simp] theorem leftHalf_append (a b : Half) : leftHalf (a ++ b) = a := by
  apply BitVec.eq_of_getLsbD_eq
  intro i hi
  simp [leftHalf, getLsbD_lr_append, hi]

/-- The right half of a concatenation (R161, R163). -/
@[simp] theorem rightHalf_append (a b : Half) : rightHalf (a ++ b) = b := by
  apply BitVec.eq_of_getLsbD_eq
  intro i hi
  simp [rightHalf, getLsbD_lr_append, hi]

/-- The halves of a word, put together again (R161). -/
theorem leftHalf_append_rightHalf (x : BitVec 64) : leftHalf x ++ rightHalf x = x := by
  apply BitVec.eq_of_getLsbD_eq
  intro i hi
  rw [getLsbD_lr_append]
  by_cases h : i < 32
  · simp [rightHalf, h]
  · have : i - 32 < 32 := by omega
    simp [leftHalf, h, this, show 32 + (i - 32) = i by omega]

end Sys2Proof.Machine
end

