-- ==== Sys2Proof/Laws/Run.lean ====
section
/-! SUPPORT. Runs of several steps: one step at a time, and one run after another. -/

namespace Sys2Proof.Machine

/-- A run that begins with a step that answers a next state, for any machine. -/
theorem core_run_succ (M : Host.Core) {s t : M.State} (n : Nat) (h : M.step s = .next t) :
    M.run (n + 1) s = M.run n t := by
  rw [Host.Core.run, h]

/-- A run of `n + m` steps is a run of `m` steps after one of `n`, for any machine. -/
theorem core_run_add (M : Host.Core) {s t : M.State} (n m : Nat) (h : M.run n s = .next t) :
    M.run (n + m) s = M.run m t := by
  induction n generalizing s with
  | zero => cases h; rw [Nat.zero_add]
  | succ n ih =>
    rw [Host.Core.run] at h
    rw [show n + 1 + m = n + m + 1 by omega, Host.Core.run]
    cases hs : M.step s with
    | next u => rw [hs] at h; exact ih h
    | fault e => rw [hs] at h; cases h
    | refused e => rw [hs] at h; cases h

/-- A run of this machine that begins with a step that answers a next state. -/
theorem run_succ {s t : State} (n : Nat) (h : step s = .next t) :
    Host.Core.run Sys2Proof.core (n + 1) s = Host.Core.run Sys2Proof.core n t :=
  core_run_succ Sys2Proof.core n h

/-- A run of no steps. -/
theorem run_zero (s : State) : Host.Core.run Sys2Proof.core 0 s = .next s := rfl

/-- A run of this machine in two parts. -/
theorem run_add {s t : State} (n m : Nat) (h : Host.Core.run Sys2Proof.core n s = .next t) :
    Host.Core.run Sys2Proof.core (n + m) s = Host.Core.run Sys2Proof.core m t :=
  core_run_add Sys2Proof.core n m h

/-- A WAIT with a block in flight is a step with no command, and the host waits on (R68). -/
theorem step_wait_busy {s : State} {ctl : Control} {rest : List HostAct} (hs : s.ctl = some ctl)
    (hb : ctl.busy = true) (hd : ctl.doutValid = false) (h : s.script = .wait :: rest) :
    step s = .next ((engineStep ctl s).respond .ok) := by
  have e : s.afterTurn ⟨Pins.quiet, .wait :: rest, s.samples⟩ = s := by
    cases s; simp_all [State.afterTurn]
  simp only [step, h, hostTurn, State.showsResult, hs, hd, Bool.false_eq_true, if_false, e]
  rw [clockEdge_busy rfl hs hb]
  rfl

/-- ROUND counts up without wrapping below 16 (R26, R185). -/
theorem round_succ (r : BitVec 5) (h : r.toNat < 16) : (r + 1).toNat = r.toNat + 1 := by
  rw [BitVec.toNat_add, show (1 : BitVec 5).toNat = 1 from rfl]
  omega

end Sys2Proof.Machine
end

