-- ==== Sys2Proof/Tests/Slice0.lean ====
section
/-! SUPPORT. The model's own tests, one step or one function each, with the expected values of
spec/95_test_vectors.md and of the examples in the rules; and for each statement with hypotheses a concrete
state and operands that meet them all. -/

namespace Sys2Proof.Tests

open Sys2Proof Sys2Proof.Machine

/-! ## The small states that the tests start from -/

/-- The key of V-DES-1. -/
def key1 : Key := 0x133457799BBCDFF1

/-- The plaintext of V-DES-1. -/
def block1 : Block := 0x0123456789ABCDEF

/-- The step answers a next state with this property. -/
def nextHas (o : Host.Outcome State Fault Refusal) (p : State → Bool) : Bool :=
  match o with
  | .next t => p t
  | .fault _ => false
  | .refused _ => false

/-- Idle after `LDKEY` of `key1` (status 0004). -/
def keyed : State :=
  { State.reset with key := some key1, ctl := some { Control.reset with keyValid := true } }

/-- Idle with the result of V-DES-1 in DOUT, after a block in this mode (status 0006 or 000E). -/
def done (mode : Mode) : State :=
  { keyed with
    dout := some 0x85E813540F0AB405,
    ctl := some { keyValid := true, mode := mode, round := 0, busy := false, doutValid := true } }

/-- The control registers with a block in flight. -/
def busyCtl (mode : Mode) (round : BitVec 5) : Control :=
  { keyValid := true, mode := mode, round := round, busy := true, doutValid := false }

/-- A block in flight under `key1`, with these halves and key halves. -/
def busyState (mode : Mode) (round : BitVec 5) (l r : Half) (c d : HalfKey) : State :=
  { keyed with l := some l, r := some r, c := some c, d := some d, ctl := some (busyCtl mode round) }

/-- V-DES-1 before round 0, before round 15 and before the final step. -/
def enc0 : State := busyState .encrypt 0 0xCC00CCFF 0xF0AAF0AA 0xF0CCAAF 0x556678F
def enc15 : State := busyState .encrypt 15 0xC28C960D 0x43423234 0xF866557 0xAAB33C7
def enc16 : State := busyState .encrypt 16 0x43423234 0x0A4CD995 0xF0CCAAF 0x556678F

/-- The ports with a command and no reset. -/
def ports (op : BitVec 2) (data : BitVec 64) : Pins :=
  { rst := false, cmdValid := true, cmdOp := op, cmdData := data }

/-- A state with one step left for the host. -/
def withPorts (s : State) (p : Pins) : State := { s with script := [.drive p] }

/-! ## Decoding: words written out from rule R61's fields (V-ENC-1 to V-ENC-5) -/

theorem test_decode_nop : decode (0b00#2 ++ 0x0000000000000000#64) = .nop 0 := by decide
theorem test_decode_nop_ignored : decode 0x0FFFFFFFFFFFFFFFF = .nop 0xFFFFFFFFFFFFFFFF := by decide
theorem test_decode_ldkey : decode 0x1133457799BBCDFF1 = .ldkey 0x133457799BBCDFF1 := by decide
theorem test_decode_enc : decode 0x20123456789ABCDEF = .enc 0x0123456789ABCDEF := by decide
theorem test_decode_dec : decode 0x385E813540F0AB405 = .dec 0x85E813540F0AB405 := by decide
theorem test_encode_enc : encode (.enc 0x0123456789ABCDEF) = 0x20123456789ABCDEF := by decide

/-- A number of 67 bits is no command word (R61). -/
theorem test_decode_too_wide :
    decodeNat 0x40000000000000000 = .error .wordTooWide ∧ decodeTableWord 72 0x40000000000000000 = none :=
      by
  exact ⟨rfl, by decide⟩

/-- The opcode table's words with their operand bits zero, 66 bits each. -/
theorem test_decode_table_words :
    decodeTableWord 66 0x00000000000000000 = some (.nop 0) ∧
    decodeTableWord 66 0x10000000000000000 = some (.ldkey 0) ∧
    decodeTableWord 72 0x20000000000000000 = some (.enc 0) ∧
    decodeTableWord 72 0x30000000000000000 = some (.dec 0) := by decide

/-! ## WellFormed: an ill-formed term for each check -/

theorem test_ill_formed_word : commandWordFits (2 ^ 66) = false := by decide
theorem test_ill_formed_canonical_nop : (Instr.nop 1).canonical = false := by decide
theorem test_ill_formed_nop_line : (Line.command (.nop 1)).wellFormed = false := by decide

/-! ## One step per command (V-CMD-1 to V-CMD-14) -/

theorem test_nop_after_reset :
    nextHas (exec (.nop 0) State.reset) fun t => t.resp = .ok ∧ t = State.reset := by decide +kernel
theorem test_enc_without_key :
    nextHas (exec (.enc 0x0123456789ABCDEF) State.reset)
      fun t => t.resp.code = 0b10#2 ∧ t.status = some 0x0000 := by decide +kernel
theorem test_dec_without_key :
    nextHas (exec (.dec 0) State.reset) fun t => t.resp.code = 0b10#2 ∧ t.status = some 0x0000 := by
  decide +kernel
theorem test_ldkey_after_reset :
    nextHas (exec (.ldkey 0x133457799BBCDFF1) State.reset)
      (fun t => t.resp = .ok ∧ t.status = some 0x0004 ∧ t.key = some 0x133457799BBCDFF1) ∧
    nextHas (exec (.ldkey 0) (done .encrypt))
      (fun t => t.status = some 0x0006 ∧ t.dout = some 0x85E813540F0AB405) := by decide +kernel
theorem test_enc_accept :
    nextHas (exec (.enc 0x0123456789ABCDEF) keyed) (fun t =>
      t.resp = .ok ∧ t.status = some 0x0005 ∧ t.l = some 0xCC00CCFF ∧ t.r = some 0xF0AAF0AA ∧
      t.c = some 0xF0CCAAF ∧ t.d = some 0x556678F) ∧
    nextHas (exec (.enc 5) (done .decrypt)) fun t => t.resp = .ok ∧ t.status = some 0x0005 := by
  decide +kernel
theorem test_dec_accept :
    nextHas (exec (.dec 0x85E813540F0AB405) keyed) fun t =>
      t.resp = .ok ∧ t.status = some 0x000D ∧ t.l = some 0x0A4CD995 ∧ t.r = some 0x43423234 := by
  decide +kernel
theorem test_round_zero :
    nextHas (idleStep enc0) fun t =>
      t.status = some 0x0015 ∧ t.l = some 0xF0AAF0AA ∧ t.r = some 0xEF4A6544 ∧
      t.c = some 0xE19955F ∧ t.d = some 0xAACCF1E := by decide +kernel
theorem test_ldkey_while_busy :
    nextHas (exec (.ldkey 0) (busyState .encrypt 3 0xA25C0BF4 0x77220045 0x0CCAAFF 0x56678F5)) fun t =>
      t.resp.code = 0b01#2 ∧ t.status = some 0x0045 ∧ t.key = some key1 := by decide +kernel
theorem test_nop_while_busy :
    nextHas (exec (.nop 0) (busyState .encrypt 4 0x77220045 0x8A4FA637 0xCCAAFF0 0x6678F55)) fun t =>
      t.resp = .ok ∧ t.status = some 0x0055 := by decide +kernel
theorem test_final_step :
    nextHas (exec (.enc 1) enc16) fun t =>
      t.resp = .busy ∧ t.status = some 0x0006 ∧ t.dout = some 0x85E813540F0AB405 := by decide +kernel
theorem test_reset_drops_ldkey :
    nextHas (clockEdge { rst := true, cmdValid := true, cmdOp := 0b01#2, cmdData := 1 } (done .decrypt))
      fun t => t.resp.code = 0b11#2 ∧ t.status = some 0x0000 ∧ t.key = none := by decide +kernel
theorem test_reset_abandons_block :
    nextHas (clockEdge Pins.reset (busyState .encrypt 7 0 0 0 0))
      fun t => t.status = some 0x0000 := by decide +kernel
theorem test_step_before_reset : step State.powerOn = .fault .stepBeforeReset := rfl

/-- From reset, step runs the presented word of each row. -/
theorem test_step_runs_first_word :
    nextHas (step (State.reset.withFetchWord 66 0x1133457799BBCDFF1)) (fun t => t.status = some 0x0004) ∧
    nextHas (step (State.reset.withFetchWord 66 0x20123456789ABCDEF)) (fun t => t.resp = .noKey) ∧
    nextHas (step (keyed.withFetchWord 72 0x385E813540F0AB405)) (fun t => t.status = some 0x000D) := by
  decide +kernel

/-! ## Vectors of the functions (sections 3.1 to 3.6 of spec/95_test_vectors.md) -/

theorem test_sbox_corners :
    ([0, 1, 2, 31, 32, 33, 62, 63].map fun x => Tables.sboxes.map fun s => s.getD x 99) =
      [[14, 15, 10, 7, 2, 12, 4, 13], [0, 3, 13, 13, 14, 10, 13, 1], [4, 1, 0, 13, 12, 1, 11, 2],
       [8, 5, 1, 9, 6, 8, 6, 2], [4, 0, 13, 10, 4, 9, 1, 7], [15, 13, 1, 3, 11, 4, 6, 2],
       [0, 15, 7, 4, 14, 6, 2, 8], [13, 9, 12, 14, 3, 13, 12, 11]] := by decide +kernel
theorem test_permutations :
    ip64 0x0123456789ABCDEF = 0xCC00CCFFF0AAF0AA ∧ ip64 1 = 0x0000008000000000 ∧
    ip64 0x8000000000000000 = 0x0000000001000000 ∧ fp64 1 = 0x0200000000000000 ∧
    fp64 0x0A4CD99543423234 = 0x85E813540F0AB405 ∧ e48 1 = 0x800000000002 ∧
    e48 0xF0AAF0AA = 0x7A15557A1555 ∧ p32 1 = 0x00000800 ∧ p32 0x5C82B597 = 0x234AA9BB := by
  decide +kernel
theorem test_permuted_choices :
    pc1 0x133457799BBCDFF1 = 0xF0CCAAF556678F ∧ pc1 0xFEFEFEFEFEFEFEFE = 0xFFFFFFFFFFFFFF ∧
    pc1 0x8000000000000000 = 0x01000000000000 ∧ pc2 1 = 0x000000000100 ∧
    pc2 0x80000000000000 = 0x080000000000 ∧ pc2 0xE19955FAACCF1E = 0x1B02EFFC7072 := by decide +kernel
theorem test_round_function :
    sboxLayer 0x6117BA866527 = 0x5C82B597 ∧ roundF 0xF0AAF0AA 0x1B02EFFC7072 = 0x234AA9BB ∧
    sboxLayer 0x111111111111 = 0xDC94462C ∧ roundF 0x12345678 0x0123456789AB = 0xCA23B070 := by
  decide +kernel
theorem test_rotators :
    rotl28 0xF0CCAAF 1 = 0xE19955F ∧ rotl28 0xF0CCAAF 2 = 0xC332ABF ∧ rotr28 0xF0CCAAF 1 = 0xF866557 ∧
    rotr28 0xF0CCAAF 2 = 0xFC332AB ∧ rotl28 0xC000000 2 = 0x0000003 ∧ rotr28 0x0000003 2 = 0xC000000 := by
  decide
theorem test_key_schedule :
    subkey key1 .encrypt 0 = 0x1B02EFFC7072 ∧ subkey key1 .encrypt 7 = 0xF78A3AC13BFB ∧
    subkey key1 .encrypt 15 = 0xCB3D8B0E17F5 ∧ subkey key1 .decrypt 0 = 0xCB3D8B0E17F5 ∧
    subkey key1 .decrypt 15 = 0x1B02EFFC7072 := by decide +kernel
theorem test_decrypt_non_ciphertext :
    des .decrypt 0x0123456789ABCDEF 0x4E6F772069732074 = 0xA416143D9243704C := by decide +kernel

/-- "Now is t" of KAT-2, byte 0 first. -/
theorem test_byte_order :
    wordOfBytes #v[0x4E, 0x6F, 0x77, 0x20, 0x69, 0x73, 0x20, 0x74] = 0x4E6F772069732074 := by decide

/-- A line of program P1, its comment dropped, in small letters, with a short operand padded on the left. -/
theorem test_assembler_line :
    parseLine ['e', 'n', 'c', ' ', ' ', '0', 'x', '1', 'F', ' ', ';',
      'x'] = .ok (some (.command (.enc 0x1F))) ∧
    parseLine ['N', 'O', 'P', ' ', '0', 'x', '1'] = .error .unexpectedOperand ∧
    parseLine ['I', 'D', 'L', 'E', ' ', '1', '3'] = .ok (some (.idle 13)) := ⟨rfl, rfl, rfl⟩

/-! ## Witnesses: for each statement with hypotheses, a state and operands that meet them -/

theorem test_witness_OpcodeMapSelectsByOpAlone :
    (0x0FFFFFFFFFFFFFFFF : CommandWord).extractLsb' 64 2 = 0b00#2 ∧
    (0x10000000000000000 : CommandWord).extractLsb' 64 2 = 0b01#2 ∧
    (0x2FFFFFFFFFFFFFFFF : CommandWord).extractLsb' 64 2 = 0b10#2 ∧
    (0x30000000000000000 : CommandWord).extractLsb' 64 2 = 0b11#2 ∧
    (0x20000000000000000 : CommandWord).getLsbD 65 = true := by decide

theorem test_witness_DecodeAndEncodeAgree :
    (Instr.dec 0xFFFFFFFFFFFFFFFF).wellFormed = true ∧ (Instr.nop 1).wellFormed = true ∧
    2 ^ 66 ≤ 73786976294838206464 ∧ decodeNat (2 ^ 66 - 1) = .ok (.dec 0xFFFFFFFFFFFFFFFF) :=
  ⟨rfl, rfl, by decide, rfl⟩

theorem test_witness_AssemblerExpandsAndRefuses :
    16 < (List.replicate 17 '0').length ∧
    parseOperand ('0' :: 'x' :: List.replicate 16 'F') = .ok 0xFFFFFFFFFFFFFFFF ∧
    parseCount ['1', '7'] = .ok 17 := ⟨by decide, rfl, rfl⟩

/-- One digit and sixteen digits, and the characters beside the digits. -/
theorem test_witness_OperandDigitsWriteTheValue :
    ['f'].map hexDigit = [15].map some ∧
    (List.replicate 16 'F').map hexDigit = (List.replicate 16 15).map some ∧
    parseOperand ['0', 'x', 'f'] = .ok 15 ∧
    [hexDigit '/', hexDigit ':', hexDigit '@', hexDigit 'G', hexDigit '`', hexDigit 'g'] =
      List.replicate 6 none ∧
    [hexDigit '0', hexDigit '9', hexDigit 'A', hexDigit 'a'] = [some 0, some 9, some 10, some 10] :=
  ⟨by decide, by decide, rfl, by decide, by decide⟩

/-- The same line in capitals and in small letters. -/
theorem test_witness_CommentsAndLetterCaseDoNotCount :
    ';' ∉ ['E', 'N', 'C', ' ', '0', 'x', '1'] ∧ ';' ∉ ['e', 'n', 'c', ' ', '0', 'x', '1'] ∧
    splitWords [] ['E', 'N', 'C', ' ', '0', 'x', '1'] = [['E', 'N', 'C'], ['0', 'x', '1']] ∧
    splitWords [] ['e', 'n', 'c', ' ', '0', 'x', '1'] = [['e', 'n', 'c'], ['0', 'x', '1']] ∧
    ['E', 'N', 'C'].map Char.toUpper = ['e', 'n', 'c'].map Char.toUpper := by decide +kernel

theorem test_witness_ByteZeroIsMostSignificant : (0 : Nat) < 8 ∧ (7 : Nat) < 8 := by decide

theorem test_witness_StepRunsThePresentedCommand :
    (withPorts State.reset (ports 0b11#2 1)).script = HostAct.drive (ports 0b11#2 1) :: [] ∧
    (ports 0b11#2 1).rst = false ∧ (ports 0b11#2 1).cmdValid = true ∧
    { State.reset with script := [HostAct.present (encode (.nop 0))] }.script =
      HostAct.present (encode (.nop 0)) :: [] ∧
    66 ≤ 66 ∧ 66 ≤ 72 ∧ 0 < 2 ^ 66 ∧ 2 ^ 66 - 1 < 2 ^ 66 := ⟨rfl, rfl, rfl, rfl, by decide⟩

theorem test_witness_CoreStepBranches :
    (withPorts State.powerOn Pins.reset).script = .drive Pins.reset :: [] ∧ Pins.reset.rst = true ∧
    (withPorts enc16 (ports 0b10#2 0)).ctl = some (busyCtl .encrypt 16) ∧
    (withPorts enc15 Pins.quiet).ctl = some (busyCtl .encrypt 15) ∧ (busyCtl .encrypt 15).busy = true ∧
    (withPorts keyed (ports 0b01#2 0)).ctl = some { Control.reset with keyValid := true } ∧
    (withPorts State.reset (ports 0b10#2 0)).ctl = some Control.reset ∧ Control.reset.busy = false :=
  ⟨rfl, rfl, rfl, rfl, rfl, rfl, rfl, rfl⟩

theorem test_witness_ResponsePortMatchesTheStep :
    (∃ t : State, clockEdge (ports 0b10#2 0) State.reset = .next t) ∧
    responsePort Pins.quiet State.powerOn.ctl = none ∧ Booted State.reset ∧
    Pins.reset.rst = true ∧ ¬ Booted State.powerOn :=
  ⟨⟨_, rfl⟩, rfl, by simp [Booted, State.reset], rfl, by simp [Booted, State.powerOn]⟩

/-- A step for each response: RST, BUSY, NOKEY and no command. -/
theorem test_witness_ResponseCodesAndTheirCauses :
    (∃ t : State, clockEdge { ports 0b00#2 0 with rst := true } enc0 = .next t ∧ t.resp.code = 0b11#2) ∧
    (∃ t : State, clockEdge (ports 0b01#2 0) enc0 = .next t ∧ t.resp.code = 0b01#2) ∧
    (∃ t : State, clockEdge (ports 0b11#2 0) State.reset = .next t ∧ t.resp.code = 0b10#2) ∧
    (∃ t : State, clockEdge Pins.quiet State.reset = .next t ∧ Pins.quiet.cmdValid = false) ∧
    State.reset.ctl = some Control.reset ∧ enc0.ctl = some (busyCtl .encrypt 0) :=
  ⟨⟨_, rfl, rfl⟩, ⟨_, rfl, rfl⟩, ⟨_, rfl, rfl⟩, ⟨_, rfl, rfl⟩, rfl, rfl⟩

/-- A state for each of the three outcomes. -/
theorem test_witness_OnlyTheTwoNamedFaults :
    (∃ t : State, step State.reset = .next t) ∧ step State.powerOn = .fault .stepBeforeReset ∧
    step { State.reset with script := [HostAct.read] } = .fault .readWhileInvalid := ⟨⟨_, rfl⟩, rfl, rfl⟩

theorem test_witness_NopWritesNothing :
    State.reset.ctl = some Control.reset ∧ Control.reset.busy = false ∧
    enc16.ctl = some (busyCtl .encrypt 16) ∧ (busyCtl .encrypt 16).busy = true := ⟨rfl, rfl, rfl, rfl⟩

theorem test_witness_LdkeyLoadsTheKey :
    (keyed.ctl = some { Control.reset with keyValid := true } ∧ exec (.ldkey 0) keyed =
      .next { keyed with key := some 0 }) ∧
    enc0.ctl = some (busyCtl .encrypt 0) ∧ (busyCtl .encrypt 0).busy = true := ⟨⟨rfl, rfl⟩, rfl, rfl⟩

theorem test_witness_EncAcceptsABlock :
    ∃ ctl : Control, (done .decrypt).ctl = some ctl ∧ ctl.busy = false ∧ ctl.keyValid = true := ⟨_, rfl,
      rfl, rfl⟩

theorem test_witness_DecAcceptsABlock :
    ∃ ctl : Control, keyed.ctl = some ctl ∧ ctl.busy = false ∧ ctl.keyValid = true := ⟨_, rfl, rfl, rfl⟩

theorem test_witness_CommandsRefusedWhileBusy :
    (∃ ctl : Control, enc16.ctl = some ctl ∧ ctl.busy = true) ∧ (∃ ctl : Control, enc0.ctl = some ctl ∧
      ctl.busy = true) ∧
    (Instr.ldkey 0).op ≠ 0b00#2 ∧ (Instr.enc 0).op ≠ 0b00#2 ∧ (Instr.dec 0).op ≠ 0b00#2 :=
  ⟨⟨_, rfl, rfl⟩, ⟨_, rfl, rfl⟩, by decide, by decide, by decide⟩

theorem test_witness_BlockCommandsRefusedWithoutKey :
    ∃ ctl : Control, State.reset.ctl = some ctl ∧ ctl.busy = false ∧ ctl.keyValid = false := ⟨_, rfl, rfl,
      rfl⟩

theorem test_witness_FrameOfCommandsWhenIdle :
    (∃ (ctl : Control) (t : State) (ctl' : Control), keyed.ctl = some ctl ∧ ctl.busy = false ∧
      exec (.dec 0) keyed = .next t ∧
      t.ctl = some ctl' ∧ (Instr.dec 0).op ≠ 0b01#2) ∧
    (∃ (ctl : Control) (t : State) (ctl' : Control), keyed.ctl = some ctl ∧ ctl.busy = false ∧
      exec (.ldkey 0) keyed = .next t ∧
      t.ctl = some ctl') ∧
    (Instr.ldkey 0).op = 0b01#2 ∧ (Instr.nop 0).op = 0b00#2 :=
  ⟨⟨_, _, _, rfl, rfl, rfl, rfl, by decide⟩, ⟨_, _, _, rfl, rfl, rfl, rfl⟩, rfl, rfl⟩

theorem test_witness_FrameOfCommandsWhenBusy :
    (∃ (ctl : Control) (t : State) (ctl' : Control), enc15.ctl = some ctl ∧ ctl.busy = true ∧
      exec (.enc 0) enc15 = .next t ∧
      t.ctl = some ctl' ∧ ctl.round.toNat < 16) ∧
    (∃ (ctl : Control) (t : State) (ctl' : Control), enc16.ctl = some ctl ∧ ctl.busy = true ∧
      exec (.enc 0) enc16 = .next t ∧
      t.ctl = some ctl' ∧ 16 ≤ ctl.round.toNat) :=
  ⟨⟨_, _, _, rfl, rfl, rfl, rfl, by decide⟩, ⟨_, _, _, rfl, rfl, rfl, rfl, by decide⟩⟩

/-- A step in which each register changes: KEY and KEY_VALID; MODE, BUSY and DOUT_VALID; L, R, C, D and
ROUND; DOUT. -/
theorem test_witness_RegistersChangeOnlyByTheirWriters :
    nextHas (clockEdge (ports 0b01#2 1) State.reset)
      (fun t => t.key ≠ State.reset.key ∧ t.ctl.map (·.keyValid) ≠ State.reset.ctl.map (·.keyValid)) ∧
    nextHas (clockEdge (ports 0b11#2 1) (done .encrypt))
      (fun t => t.ctl.map (·.mode) = some .decrypt ∧ t.ctl.map (·.busy) = some true ∧
        t.ctl.map (·.doutValid) = some false) ∧
    nextHas (clockEdge Pins.quiet enc0)
      (fun t => t.l ≠ enc0.l ∧ t.r ≠ enc0.r ∧ t.c ≠ enc0.c ∧ t.d ≠ enc0.d ∧
        t.ctl.map (·.round) = some 1) ∧
    nextHas (clockEdge Pins.quiet enc16) (fun t => t.dout ≠ enc16.dout) := by decide +kernel

theorem test_witness_RoundStepRunsOneRound :
    (∃ ctl : Control, (withPorts enc0 Pins.quiet).ctl = some ctl ∧ ctl.busy = true ∧ ctl.round.toNat < 16) ∧
    (∃ ctl : Control, (withPorts enc15 (ports 0b01#2 0)).ctl = some ctl ∧ ctl.busy = true ∧
      ctl.round.toNat < 16) ∧
    enc15.l = some 0xC28C960D ∧ enc15.r = some 0x43423234 ∧ enc15.c = some 0xF866557 ∧
    enc15.d = some 0xAAB33C7 ∧ Pins.quiet.rst = false :=
  ⟨⟨_, rfl, rfl, by decide⟩, ⟨_, rfl, rfl, by decide⟩, rfl, rfl, rfl, rfl, rfl⟩

theorem test_witness_FinalStepWritesTheResult :
    ∃ ctl : Control, (withPorts enc16 Pins.quiet).ctl = some ctl ∧ ctl.busy = true ∧ ctl.round.toNat = 16 ∧
      enc16.l = some 0x43423234 ∧ enc16.r = some 0x0A4CD995 := ⟨_, rfl, rfl, rfl, rfl, rfl⟩

/-- Both sides of each equivalence occur. -/
theorem test_witness_UnknownContentsStayUnknown :
    (roundStep (busyCtl .encrypt 0) State.reset).r = none ∧
    (roundStep (busyCtl .encrypt 0) enc0).r ≠ none ∧
    (roundStep (busyCtl .encrypt 0) { enc0 with d := none }).r = none ∧
    (finalStep (busyCtl .encrypt 16) State.reset).dout = none ∧
    (finalStep (busyCtl .encrypt 16) enc16).dout ≠ none ∧
    (accept .decrypt 0 Control.reset State.reset).c = none ∧
    (accept .decrypt 0 Control.reset State.reset).d = none ∧
    (accept .decrypt 0 Control.reset keyed).d ≠ none := by decide +kernel

theorem test_witness_ResetActsInEveryState :
    Pins.reset.rst = true ∧ { ports 0b01#2 1 with rst := true }.rst = true := ⟨rfl, rfl⟩

theorem test_witness_StepsBeforeResetAreFaults :
    State.powerOn.ctl = none ∧ Pins.quiet.rst = false ∧ (ports 0b00#2 0).rst = false ∧
    Pins.reset.rst = true := ⟨rfl, rfl, rfl, rfl⟩

theorem test_witness_ReadSamplesOnlyAValidResult :
    (∃ ctl : Control, (done .encrypt).ctl = some ctl ∧ ctl.doutValid = true) ∧
    (∃ ctl : Control, enc16.ctl = some ctl ∧ ctl.doutValid = false) ∧ State.powerOn.ctl = none ∧
    nextHas (step { done .encrypt with script := [HostAct.read, .wait, .read] })
      (fun t => t.samples = [some 0x85E813540F0AB405, some 0x85E813540F0AB405]) :=
  ⟨⟨_, rfl, rfl⟩, ⟨_, rfl, rfl⟩, rfl, by decide +kernel⟩

theorem test_witness_WaitHoldsTheHost :
    (∃ ctl : Control, { done .encrypt with script := [HostAct.wait] }.ctl = some ctl ∧
      ctl.doutValid = true) ∧
    (∃ ctl : Control, { enc16 with script := [HostAct.wait] }.ctl = some ctl ∧ ctl.doutValid = false) :=
  ⟨⟨_, rfl, rfl⟩, ⟨_, rfl, rfl⟩⟩

theorem test_witness_FipsFormsDefineTheSameFunction :
    1 ≤ 1 ∧ 64 ≤ Tables.IP_FIPS.length ∧
    Tables.IP_L.getD 63 99 = 64 - Tables.IP_FIPS.getD 0 99 ∧
    Tables.IP_L.getD 0 99 = 64 - Tables.IP_FIPS.getD 63 99 := by decide

/-- Two inputs that differ, and agree on the bits that the table names. -/
theorem test_witness_PermuteCopiesTheNamedBits :
    (0 : Nat) < Tables.PC1_L.length ∧ 55 < Tables.PC1_L.length ∧
    (∀ j ∈ Tables.PC1_L, (0x0101010101010101 : Key).getLsbD j = (0 : Key).getLsbD j) := by decide +kernel

theorem test_witness_Pc1DropsTheParityBits :
    (0x0101010101010101 : Key) &&& ~~~0x0101010101010101#64 = 0 ∧
    (0x0100000000000001 : Key) &&& ~~~0x0101010101010101#64 = 0 := by decide

/-- Bit 2 is dropped, so the two inputs agree on every bit that PC2 reads; 31 and 47 are the boundary bits
of the lists. -/
theorem test_witness_ExpansionDuplicatesAndPc2Drops :
    (∀ b, b < 56 → b ∉ [47, 38, 34, 31, 21, 18, 13, 2] →
      (0x00800000000004 : PermutedKey).getLsbD b = (0 : PermutedKey).getLsbD b) ∧
    Tables.E_L.count 31 = 2 ∧ Tables.E_L.count 0 = 2 ∧ Tables.E_L.count 30 = 1 ∧
    Tables.PC2_L.count 55 = 1 ∧ Tables.PC2_L.count 0 = 1 ∧ Tables.PC2_L.count 47 = 0 := by decide +kernel

/-- Lanes 0 and 7 of V-F-1: groups 24 and 39, nibbles 5 and 7. -/
theorem test_witness_SboxLanesAreIndependent :
    (0 : Nat) < 8 ∧ (7 : Nat) < 8 ∧ nibble 0x6117BA866527 0 = 5 ∧ nibble 0x6117BA866527 7 = 7 := by
  decide +kernel

theorem test_witness_RoundFunctionOfComplements :
    e48 0 ^^^ 0 = e48 0xFFFFFFFF ^^^ 0xFFFFFFFFFFFF := by decide +kernel

theorem test_witness_RotatorsAreCircular :
    (0 : Nat) < 28 ∧ (27 : Nat) < 28 ∧ rotl28 0x8000000 1 = 1 ∧ rotr28 1 1 = 0x8000000 := by decide

theorem test_witness_RotationAmounts :
    1 ≤ 1 ∧ 1 < 16 ∧ 1 ≤ 15 ∧ 15 < 16 ∧ amount .decrypt 0 = 0 ∧ amount .decrypt 1 = 1 ∧
    amount .decrypt 15 = 1 := by decide

/-- Equal C with different D, and equal D with different C. -/
theorem test_witness_KeyHalvesAreIndependent :
    enc0.c = { enc0 with d := some 0 }.c ∧ enc0.d ≠ { enc0 with d := some 0 }.d ∧
    enc0.d = { enc0 with c := some 0 }.d ∧ enc0.c ≠ { enc0 with c := some 0 }.c := by decide

theorem test_witness_DecryptionSubkeysMirrorEncryption : (0 : Nat) ≤ 15 ∧ (15 : Nat) ≤ 15 := by decide

theorem test_witness_EqualSubkeysMakeEncryptionAnInvolution :
    ∀ r, r < 16 → subkey 0x0101010101010101 .encrypt r = subkey 0x0101010101010101 .encrypt 0 := by
  decide +kernel

/-- The registers of V-DES-1 in flight are those of rule R35 item 5. -/
theorem test_witness_in_flight (ctl : Control) (s : State)
    (h : (ctl, s) ∈ [(busyCtl .encrypt 0, enc0), (busyCtl .encrypt 15, enc15), (busyCtl .encrypt 16,
      enc16)]) :
    InFlight ctl key1 block1 s := by
  simp only [List.mem_cons, List.not_mem_nil, or_false, Prod.mk.injEq] at h
  rcases h with ⟨rfl, rfl⟩ | ⟨rfl, rfl⟩ | ⟨rfl, rfl⟩
  all_goals
    constructor <;> decide +kernel

/-- The invariant holds with a block in flight at ROUND 0, 15 and 16, after a block, and before the first
reset; a step follows from each but the last. -/
theorem test_witness_EveryStepKeepsTheInvariant :
    (CoreInvariant enc0 ∧ ∃ t : State, step enc0 = .next t) ∧ (CoreInvariant enc15 ∧ ∃ t : State,
      step enc15 = .next t) ∧
    (CoreInvariant enc16 ∧ ∃ t : State, step enc16 = .next t) ∧
    (CoreInvariant (done .encrypt) ∧ ∃ t : State, step (done .encrypt) = .next t) ∧
    (CoreInvariant (withPorts State.powerOn Pins.reset) ∧
      ∃ t : State, step (withPorts State.powerOn Pins.reset) = .next t) := by
  have busy : ∀ ctl s, s.ctl = some ctl → ctl.busy = true → ctl.keyValid = true → ctl.doutValid = false →
      ctl.round.toNat ≤ 16 → InFlight ctl key1 block1 s → CoreInvariant s := by
    intro ctl s hs hb hk hd hr h ctl' h'
    obtain rfl : ctl = ctl' := by simpa [hs] using h'
    exact ⟨hr, by simp [hb], by simp [h.key_latched], fun _ => hk,
      fun _ => by simp [h.c_rotated, h.d_rotated, h.l_halves, h.r_halves], by simp [hd], by simp [hd],
      fun _ => ⟨_, _, h⟩⟩
  have idle : CoreInvariant (done .encrypt) := by
    intro ctl h
    obtain rfl : _ = ctl := by simpa [done] using h
    constructor <;> simp [done, keyed]
  refine ⟨⟨busy _ _ rfl rfl rfl rfl (by decide) (test_witness_in_flight _ _ (by simp)), _, rfl⟩,
    ⟨busy _ _ rfl rfl rfl rfl (by decide) (test_witness_in_flight _ _ (by simp)), _, rfl⟩,
    ⟨busy _ _ rfl rfl rfl rfl (by decide) (test_witness_in_flight _ _ (by simp)), _, rfl⟩,
    ⟨idle, _, rfl⟩, ⟨?_, _, rfl⟩⟩
  intro ctl h
  simp [withPorts, State.powerOn] at h

/-- An accept from the keyed state, and V-DES-1 in flight at ROUND 0, 15 and 16, for its own key and block. -/
theorem test_witness_StagesFollowTheAcceptedBlock :
    (∃ ctl : Control, keyed.ctl = some ctl ∧ ctl.busy = false ∧ ctl.keyValid = true ∧
      keyed.key = some key1) ∧
    (InFlight (busyCtl .encrypt 0) key1 block1 enc0 ∧ (busyCtl .encrypt 0).round.toNat < 16) ∧
    (InFlight (busyCtl .encrypt 15) key1 block1 enc15 ∧ (busyCtl .encrypt 15).round.toNat < 16) ∧
    (InFlight (busyCtl .encrypt 16) key1 block1 enc16 ∧ (busyCtl .encrypt 16).round.toNat = 16) ∧
    (ports 0b01#2 0).rst = false ∧ enc16.ctl = some (busyCtl .encrypt 16) ∧
    (busyCtl .encrypt 16).busy = true :=
  ⟨⟨_, rfl, rfl, rfl, rfl⟩, ⟨test_witness_in_flight _ _ (by simp), by decide⟩,
    ⟨test_witness_in_flight _ _ (by simp), by decide⟩, ⟨test_witness_in_flight _ _ (by simp), rfl⟩,
    rfl, rfl, rfl⟩

/-- The port levels of a host that presents a refused LDKEY in every step. -/
def busyPorts (n : Nat) : List Pins := List.replicate n (ports 0b01#2 0)

/-- No reset in them. -/
theorem test_busy_ports (n : Nat) : NoReset (busyPorts n) := by
  intro p h
  rw [List.eq_of_mem_replicate h]
  rfl

theorem test_witness_AcceptedBlockCompletesInEighteenSteps :
    ∃ (s : State) (ctl : Control), s.ctl = some ctl ∧ ctl.busy = false ∧ ctl.keyValid = true ∧
      s.key = some key1 ∧
      NoReset (busyPorts 17) ∧ (busyPorts 17).length = 17 ∧
      s.script = HostAct.present (encode (blockInstr .decrypt block1)) ::
        ((busyPorts 17).map HostAct.drive ++ [HostAct.read]) :=
  ⟨{ keyed with script := HostAct.present (encode (blockInstr .decrypt block1)) ::
      ((busyPorts 17).map HostAct.drive ++ [HostAct.read]) }, _, rfl, rfl, rfl, rfl, test_busy_ports 17,
        rfl, rfl⟩

/-- The three boundary lengths: the first step after the accept, the last refused one, the next accept. -/
theorem test_witness_BusyInterlock : ∀ n ∈ [0, 16, 17],
    ∃ (s : State) (ctl : Control), s.ctl = some ctl ∧ ctl.busy = false ∧ ctl.keyValid = true ∧
      s.key = some key1 ∧
      NoReset (busyPorts n) ∧ (busyPorts n).length ≤ 17 ∧ (ports 0b11#2 1).rst = false ∧
      (ports 0b11#2 1).cmdValid = true ∧ (ports 0b11#2 1).cmdOp ≠ 0b00#2 ∧
      s.script = HostAct.present (encode (blockInstr .encrypt block1)) ::
        ((busyPorts n).map HostAct.drive ++ HostAct.drive (ports 0b11#2 1) :: []) :=
  fun n h => ⟨{ keyed with script := HostAct.present (encode (blockInstr .encrypt block1)) ::
      ((busyPorts n).map HostAct.drive ++ HostAct.drive (ports 0b11#2 1) :: []) }, _, rfl, rfl, rfl, rfl,
    test_busy_ports n, by simp [busyPorts] at h ⊢; omega, rfl, rfl, by decide, rfl⟩

theorem test_witness_BlockInFlightEndsWithinSeventeenSteps :
    (enc0.ctl = some (busyCtl .encrypt 0) ∧ (busyCtl .encrypt 0).round.toNat ≤ 16 ∧
      (busyPorts 17).length = 17 - (busyCtl .encrypt 0).round.toNat) ∧
    (enc16.ctl = some (busyCtl .encrypt 16) ∧ (busyCtl .encrypt 16).round.toNat ≤ 16 ∧
      (busyPorts 1).length = 17 - (busyCtl .encrypt 16).round.toNat) ∧
    (busyCtl .encrypt 16).busy = true ∧ NoReset (busyPorts 17) ∧
    { enc0 with script := (busyPorts 17).map HostAct.drive ++
      [] }.script = (busyPorts 17).map HostAct.drive ++ [] :=
  ⟨⟨rfl, by decide, rfl⟩, ⟨rfl, by decide, rfl⟩, rfl, test_busy_ports 17, rfl⟩

/-- One LDKEY and one NOP, and no step at all. -/
theorem test_witness_ResultStaysUntilTheNextBlock :
    ∃ (s : State) (ctl : Control), s.ctl = some ctl ∧ ctl.busy = false ∧ ctl.doutValid = true ∧
      s.script = [ports 0b01#2 0, ports 0b00#2 0].map HostAct.drive ++ [HostAct.read] ∧
        NoReset [ports 0b01#2 0, ports 0b00#2 0] ∧ NoReset [] ∧
      (∀ p ∈ [ports 0b01#2 0, ports 0b00#2 0],
        p.cmdValid = true → p.cmdOp = 0b00#2 ∨ p.cmdOp = 0b01#2) :=
  ⟨{ done .encrypt with
      script := [ports 0b01#2 0, ports 0b00#2 0].map HostAct.drive ++ [HostAct.read] }, _,
    rfl, rfl, rfl, rfl, by simp [NoReset, ports], by simp [NoReset], by simp [ports]⟩

/-- With a reset, with a refused ENC, and with an accepted LDKEY. -/
theorem test_witness_NoResultWithoutAnAcceptedBlock :
    State.reset.ctl = some Control.reset ∧ Control.reset.busy = false ∧ Control.reset.doutValid = false ∧
    (Pins.reset.rst = true ∧ ∃ t : State, clockEdge Pins.reset State.reset = .next t) ∧
    (¬ Accepted (ports 0b10#2 0) Control.reset ∧
      ∃ t : State, clockEdge (ports 0b10#2 0) State.reset = .next t) ∧
    (¬ Accepted (ports 0b01#2 0) Control.reset ∧
      ∃ t : State, clockEdge (ports 0b01#2 0) State.reset = .next t) :=
  ⟨rfl, rfl, rfl, ⟨rfl, _, rfl⟩, ⟨by simp [Accepted, Control.reset], _, rfl⟩,
    ⟨by simp [Accepted, Control.reset], _, rfl⟩⟩

/-- After a reset the datapath registers may hold anything. -/
theorem test_witness_UnusedContentsNeverShow :
    SameWhereUsed State.reset
      { State.reset with key := some 1, l := some 2, r := some 3, c := some 4, d := some 5,
                         dout := some 6 } ∧
    (∃ t : State, step State.reset = .next t) ∧
    step { State.reset with script := [HostAct.read] } = .fault .readWhileInvalid := by
  refine ⟨⟨rfl, rfl, rfl, rfl, ?_, ?_, ?_⟩, ⟨_, rfl⟩, rfl⟩ <;>
    · intro ctl h
      obtain rfl : _ = ctl := by simpa [State.reset] using h
      simp [Control.reset]

/-- The keys of V-PROP-2. -/
theorem test_witness_KeyParityNeverShows :
    SameButParity keyed { keyed with key := some 0x123457799BBCDFF0 } ∧ (∃ t : State,
      step keyed = .next t) ∧
    step { keyed with script := [HostAct.read] } = .fault .readWhileInvalid :=
  ⟨⟨by decide +kernel, rfl⟩, ⟨_, rfl⟩, rfl⟩

/-- The power-on state with program P1 lined up, and DEC in the place of ENC. -/
theorem test_witness_BootSequenceYieldsTheResult :
    (State.powerOn.withProgram [.reset, .command (.ldkey key1), .command (.enc block1), .wait,
      .read]).script =
      [.drive Pins.reset, HostAct.present (encode (.ldkey key1)),
        HostAct.present (encode (blockInstr .encrypt block1)), .wait, .read] ∧
    (State.powerOn.withProgram [.reset, .command (.ldkey key1), .command (.dec 0), .wait, .read]).script =
      [.drive Pins.reset, HostAct.present (encode (.ldkey key1)),
        HostAct.present (encode (blockInstr .decrypt 0)), .wait, .read] := ⟨rfl, rfl⟩

end Sys2Proof.Tests
end

section
/-! The fields of the status word (R30), read off its form as one concatenation of 16 bits. -/

namespace Sys2Proof.Machine

/-- A one-bit port shows 1 exactly when its register holds. -/
theorem bit_eq_ite (b : Bool) : bit b = if b then 1 else 0 := by
  cases b <;> rfl

/-- The MODE bit is 1 exactly for DECRYPT (R25). -/
theorem modeBit_eq_ite (m : Mode) : modeBit m = if m = .decrypt then 1 else 0 := by
  cases m <;> rfl

namespace Control

/-- The zero extension of R30 written out: the seven reserved bits stand above the five fields. -/
theorem status_eq_append (ctl : Control) :
    ctl.status = 0#7 ++
      (ctl.round ++ modeBit ctl.mode ++ bit ctl.keyValid ++ bit ctl.doutValid ++ bit ctl.busy) := by
  rw [status, BitVec.setWidth_eq_append (by decide), BitVec.cast_eq]

/-- The nine bits of the five fields, without the reserved bits. -/
theorem status_extract_fields (ctl : Control) {start len : Nat} (h : start + len ≤ 9) :
    ctl.status.extractLsb' start len =
      (ctl.round ++ modeBit ctl.mode ++ bit ctl.keyValid ++ bit ctl.doutValid ++
        bit ctl.busy).extractLsb' start len := by
  rw [status_eq_append, BitVec.extractLsb'_append_eq_of_add_le h]

@[simp] theorem status_reserved (ctl : Control) : ctl.status.extractLsb' 9 7 = 0 := by
  rw [status_eq_append, BitVec.extractLsb'_append_eq_left]
  rfl

@[simp] theorem status_busy (ctl : Control) : ctl.status.extractLsb' 0 1 = bit ctl.busy := by
  rw [status_extract_fields ctl (by decide), BitVec.extractLsb'_append_eq_right]

@[simp] theorem status_doutValid (ctl : Control) :
    ctl.status.extractLsb' 1 1 = bit ctl.doutValid := by
  rw [status_extract_fields ctl (by decide), BitVec.extractLsb'_append_eq_of_le (by decide),
    BitVec.extractLsb'_append_eq_right]

@[simp] theorem status_keyValid (ctl : Control) :
    ctl.status.extractLsb' 2 1 = bit ctl.keyValid := by
  rw [status_extract_fields ctl (by decide), BitVec.extractLsb'_append_eq_of_le (by decide),
    BitVec.extractLsb'_append_eq_of_le (by decide), BitVec.extractLsb'_append_eq_right]

@[simp] theorem status_mode (ctl : Control) : ctl.status.extractLsb' 3 1 = modeBit ctl.mode := by
  rw [status_extract_fields ctl (by decide), BitVec.extractLsb'_append_eq_of_le (by decide),
    BitVec.extractLsb'_append_eq_of_le (by decide), BitVec.extractLsb'_append_eq_of_le (by decide),
    BitVec.extractLsb'_append_eq_right]

@[simp] theorem status_round (ctl : Control) : ctl.status.extractLsb' 4 5 = ctl.round := by
  rw [status_extract_fields ctl (by decide), BitVec.extractLsb'_append_eq_of_le (by decide),
    BitVec.extractLsb'_append_eq_of_le (by decide), BitVec.extractLsb'_append_eq_of_le (by decide),
    BitVec.extractLsb'_append_eq_left]

end Control

/-- Settles O28: the general layout field by field; the reset value and the rule's example are two words
that the model evaluates. -/
theorem statusWordLayout : Obligations.StatusWordLayout := by
  refine ⟨fun ctl => ⟨?busy, ?doutValid, ?keyValid, ?mode, ctl.status_round, ctl.status_reserved⟩,
    ?reset, ?inRoundFive⟩
  case busy => rw [Control.status_busy, bit_eq_ite]
  case doutValid => rw [Control.status_doutValid, bit_eq_ite]
  case keyValid => rw [Control.status_keyValid, bit_eq_ite]
  case mode => rw [Control.status_mode, modeBit_eq_ite]
  case reset => rfl
  case inRoundFive => rfl

end Sys2Proof.Machine
end

section
/-! The byte order of a word (R42): `wordOfBytes` and `bytesOfWord` read byte by byte. A word is fixed by its
eight bytes, so both round trips follow from the position of each byte. -/

namespace Sys2Proof.Machine

@[simp] theorem getElem_bytesOfWord (w : BitVec 64) (k : Nat) (h : k < 8) :
    (bytesOfWord w)[k] = byteOfWord w k := by
  match k, h with
  | 0, _ | 1, _ | 2, _ | 3, _ | 4, _ | 5, _ | 6, _ | 7, _ => rfl

/-- The byte read off the concatenation, whose width is kept as the sum of the eight widths, the form in which
the library's lemmas on `extractLsb'` of `++` apply. -/
theorem byteOfWord_wordOfBytes_eq_extract (b : Vector (BitVec 8) 8) (k : Nat) :
    byteOfWord (wordOfBytes b) k =
      (b[0] ++ b[1] ++ b[2] ++ b[3] ++ b[4] ++ b[5] ++ b[6] ++ b[7]).extractLsb' (56 - 8 * k) 8 := rfl

/-- Byte `k` stands above the `56 - 8 * k` bits of the bytes after it and below the bytes before it. -/
@[simp] theorem byteOfWord_wordOfBytes (b : Vector (BitVec 8) 8) (k : Nat) (h : k < 8) :
    byteOfWord (wordOfBytes b) k = b[k] := by
  rw [byteOfWord_wordOfBytes_eq_extract]
  match k, h with
  | 0, _ | 1, _ | 2, _ | 3, _ | 4, _ | 5, _ | 6, _ | 7, _ =>
    simp (disch := decide) only [Nat.reduceMul, Nat.reduceSub, BitVec.extractLsb'_append_eq_of_le,
      BitVec.extractLsb'_append_eq_right, BitVec.extractLsb'_eq_self]

/-- Bit `i` of a word is bit `i % 8` of its byte `7 - i / 8`. -/
theorem getLsbD_eq_byteOfWord (w : BitVec 64) (i : Nat) (h : i < 64) :
    w.getLsbD i = (byteOfWord w (7 - i / 8)).getLsbD (i % 8) := by
  have position : 56 - 8 * (7 - i / 8) + i % 8 = i := by omega
  have inByte : i % 8 < 8 := Nat.mod_lt i (by decide)
  simp [byteOfWord, position, inByte]

/-- Two words with the same eight bytes are equal. -/
theorem word_ext_of_bytes {v w : BitVec 64} (h : ∀ k < 8, byteOfWord v k = byteOfWord w k) : v = w := by
  refine BitVec.eq_of_getLsbD_eq fun i hi => ?_
  rw [getLsbD_eq_byteOfWord v i hi, getLsbD_eq_byteOfWord w i hi, h (7 - i / 8) (by omega)]

@[simp] theorem bytesOfWord_wordOfBytes (b : Vector (BitVec 8) 8) : bytesOfWord (wordOfBytes b) = b := by
  refine Vector.ext fun k hk => ?_
  rw [getElem_bytesOfWord, byteOfWord_wordOfBytes b k hk]

@[simp] theorem wordOfBytes_bytesOfWord (w : BitVec 64) : wordOfBytes (bytesOfWord w) = w := by
  refine word_ext_of_bytes fun k hk => ?_
  rw [byteOfWord_wordOfBytes _ k hk, getElem_bytesOfWord]

/-- Settles O5: the two positions are the lemmas on single bytes, and the two round trips follow from
them. -/
theorem byteZeroIsMostSignificant : Obligations.ByteZeroIsMostSignificant :=
  ⟨bytesOfWord_wordOfBytes, wordOfBytes_bytesOfWord, byteOfWord_wordOfBytes, getElem_bytesOfWord⟩

end Sys2Proof.Machine
end

section
/-! The opcode map (R62): what the decoder and the rows of the opcode table read of a word is its opcode. -/

namespace Sys2Proof

section
variable {w : CommandWord}

theorem decode_of_nop_op (h : opField w = 0b00#2) : decode w = .nop (dataField w) := by
  simp [decode, h]

theorem decode_of_ldkey_op (h : opField w = 0b01#2) : decode w = .ldkey (dataField w) := by
  simp [decode, h]

theorem decode_of_enc_op (h : opField w = 0b10#2) : decode w = .enc (dataField w) := by
  simp [decode, h]

theorem decode_of_dec_op (h : opField w = 0b11#2) : decode w = .dec (dataField w) := by
  simp [decode, h]

/-- Bits 65 and 64 are the two bits of the opcode: with bit 65 set, bit 64 tells DEC from ENC. -/
theorem opField_of_block_bit (h : w.getLsbD 65 = true) :
    opField w = if w.getLsbD 64 then 0b11#2 else 0b10#2 := by
  have bits : ∀ op : BitVec 2, op.getLsbD 1 = true →
      op = if op.getLsbD 0 then 0b11#2 else 0b10#2 := by decide
  simpa [opField] using bits (opField w) (by simpa [opField] using h)

/-- Bit 65 selects a block operation and bit 64 is its mode. -/
theorem decode_of_block_bit (h : w.getLsbD 65 = true) :
    decode w =
      Machine.blockInstr (if w.getLsbD 64 then .decrypt else .encrypt) (dataField w) := by
  have op := opField_of_block_bit h
  split_ifs with mode
  · exact decode_of_dec_op (op.trans (if_pos mode))
  · exact decode_of_enc_op (op.trans (if_neg mode))

end

/-- The operand does not matter to which command the decoder picks. -/
theorem decode_append_mnemonic (op : BitVec 2) (data : BitVec 64) :
    (decode (op ++ data)).mnemonic = (decode (op ++ (0 : BitVec 64))).mnemonic := by
  rw [decode_append, decode_append]
  split_ifs <;> rfl

/-- Every row of the opcode table has the mask that keeps the opcode. -/
theorem opcodeTable_mask : ∀ row ∈ opcodeTable, row.mask = 0x30000000000000000 := by decide

/-- The operand does not matter to whether a row of the opcode table covers a word. -/
theorem covers_append {row : OpcodeRow} (h : row ∈ opcodeTable) (op : BitVec 2) (data : BitVec 64) :
    row.covers (op ++ data) = row.covers (op ++ (0 : BitVec 64)) := by
  simp only [OpcodeRow.covers, opcodeTable_mask row h, Laws.masked_word, opField_append]

/-- For each of the four opcodes the table has one row, that of the command decoded. -/
theorem covering_mnemonics_of_op : ∀ op : BitVec 2,
    (opcodeTable.filter fun row => row.covers (op ++ (0 : BitVec 64))).map (fun row => row.mnemonic) =
      [(decode (op ++ (0 : BitVec 64))).mnemonic] := by
  decide

/-- Exactly one row of the opcode table covers a word: that of the decoded command. -/
theorem covering_mnemonics (w : CommandWord) :
    (opcodeTable.filter fun row => row.covers w).map (fun row => row.mnemonic) =
      [(decode w).mnemonic] := by
  rw [← opField_append_dataField w, List.filter_congr fun row h => covers_append h _ _,
    covering_mnemonics_of_op, decode_append_mnemonic _ (dataField w)]

/-- Settles O1: the clauses on `op` and on bits 65 and 64 are the decoder's equations, and the rows that
cover a word depend on its opcode alone, of which there are four. -/
theorem opcodeMapSelectsByOpAlone : Obligations.OpcodeMapSelectsByOpAlone := fun w =>
  ⟨decode_of_nop_op, decode_of_ldkey_op, decode_of_enc_op, decode_of_dec_op, decode_of_block_bit,
    covering_mnemonics w⟩

end Sys2Proof
end

section
/-! The two forms of each table (R80, R87). The LSB-0 form reads a FIPS table from its end and counts the
source bits from the other side of the input, so both forms name the same bit for each bit of the output. -/

namespace Sys2Proof.Machine

open Tables

@[simp] theorem length_lsbForm (m : Nat) (fips : List Nat) : (lsbForm m fips).length = fips.length := by
  simp [lsbForm]

/-- The equation of R80, `T_L[i] = M - T[N-1-i]`. -/
theorem getElem_lsbForm (m : Nat) (fips : List Nat) (i : Nat) (h : i < (lsbForm m fips).length) :
    (lsbForm m fips)[i] = m - fips.getD (fips.length - 1 - i) 0 := by
  have hi : fips.length - 1 - i < fips.length := by rw [length_lsbForm] at h; omega
  simp [lsbForm, hi]

/-- Bit `i` of what `permute` yields is the bit that entry `i` of the table names (R100). -/
theorem getLsbD_permute_of_lt (table : List Nat) {n m : Nat} (x : BitVec m) {i : Nat} (hn : i < n)
    (h : i < table.length) : (permute n table x).getLsbD i = x.getLsbD table[i] := by
  rw [getLsbD_permute]
  simp [hn, h]

/-- FIPS position `j` of the result is the bit that the FIPS table names there, both counted from 1 at the
most significant bit (R80). -/
theorem getLsbD_permute_lsbForm (m : Nat) (table : List Nat) (x : BitVec m) (j : Nat) (hj : 1 ≤ j)
    (hN : j ≤ table.length) :
    (permute table.length (lsbForm m table) x).getLsbD (table.length - j) =
      x.getLsbD (m - table.getD (j - 1) 0) := by
  have inWidth : table.length - j < table.length := by omega
  have mirrored : table.length - 1 - (table.length - j) = j - 1 := by omega
  rw [getLsbD_permute_of_lt _ x inWidth (by simpa using inWidth), getElem_lsbForm, mirrored]

/-- Settles O30: the six tables are compared entry by entry, and the equivalence of the two forms holds for
every table by the equation of R80. -/
theorem fipsFormsDefineTheSameFunction : Obligations.FipsFormsDefineTheSameFunction :=
  ⟨⟨rfl, rfl, rfl, rfl, rfl, rfl⟩, getLsbD_permute_lsbForm⟩

/-- The rearrangement of R87 for the eight boxes. -/
theorem sboxes_eq_map_directForm : sboxes = sboxesFips.map directForm := by
  decide

/-- Each row of 16 columns of a FIPS box holds the numbers 0 to 15 in some order (R87). -/
theorem sboxesFips_row_perm : ∀ s ∈ sboxesFips, ∀ row < 4,
    ((s.drop (16 * row)).take 16).Perm (List.range 16) := by
  decide

/-- A direct-index array holds nothing but entries of its FIPS box (R87). -/
theorem mem_of_mem_directForm {fips : List Nat} (hlen : fips.length = 64) {v : Nat}
    (h : v ∈ directForm fips) : v ∈ fips := by
  obtain ⟨x, hx, rfl⟩ := List.mem_map.mp h
  have inBox : 16 * (2 * (x / 32) + x % 2) + x / 2 % 16 < fips.length := by
    have := List.mem_range.mp hx
    omega
  rw [List.getD_eq_getElem _ _ inBox]
  exact List.getElem_mem inBox

theorem sboxesFips_length : ∀ s ∈ sboxesFips, s.length = 64 := by decide

theorem sboxesFips_le : ∀ s ∈ sboxesFips, ∀ v ∈ s, v ≤ 15 := by decide

/-- Settles O31: the arrays are rearranged FIPS boxes and so share their range, and a row that is a
rearrangement of 0 to 15 holds each of these once. -/
theorem directIndexArraysComeFromFips : Obligations.DirectIndexArraysComeFromFips := by
  refine ⟨sboxes_eq_map_directForm, ?range, fun s hs => ⟨sboxesFips_length s hs, ?rows⟩⟩
  case range =>
    rw [sboxes_eq_map_directForm]
    rintro _ hsd v hv
    obtain ⟨s, hs, rfl⟩ := List.mem_map.mp hsd
    exact sboxesFips_le s hs v (mem_of_mem_directForm (sboxesFips_length s hs) hv)
  case rows =>
    intro row hrow v hv
    rw [(sboxesFips_row_perm s hs row hrow).count_eq]
    exact List.count_eq_one_of_mem List.nodup_range (List.mem_range.mpr hv)

end Sys2Proof.Machine
end

section
/-! The primitive `permute` as an operation on words (R100): linear over xor, composed through its tables, and
the identity for the table that names each bit in its place. The properties of the six permutations (R103 to
R106) are facts about their tables, carried to words by these laws. -/

namespace Sys2Proof.Machine

open Tables

/-- The corner case of R100 for the zero word. -/
@[simp] theorem permute_zero (n : Nat) (table : List Nat) (m : Nat) :
    permute n table 0#m = 0#n := by
  refine BitVec.eq_of_getLsbD_eq fun i _ => ?_
  rw [getLsbD_permute]
  cases table[i]? <;> simp

/-- Linearity over xor (R100). -/
theorem permute_xor (n : Nat) (table : List Nat) {m : Nat} (a b : BitVec m) :
    permute n table (a ^^^ b) = permute n table a ^^^ permute n table b := by
  refine BitVec.eq_of_getLsbD_eq fun i hi => ?_
  rw [BitVec.getLsbD_xor, getLsbD_permute, getLsbD_permute, getLsbD_permute]
  cases table[i]? <;> simp [hi]

/-- Settles O32: the four clauses are the laws of `permute`, for a result as wide as its table. -/
theorem permuteCopiesTheNamedBits : Obligations.PermuteCopiesTheNamedBits := fun m table =>
  ⟨fun x _ h => getLsbD_permute_of_lt table x h h, permute_zero _ table m, permute_xor _ table,
    permute_congr _ table⟩

/-- Permuting twice is permuting once, by the table that looks the entries of the outer table up in the inner
one. -/
theorem permute_permute (n : Nat) {k m : Nat} (outer inner : List Nat) (x : BitVec m)
    (fills : inner.length = k) (inRange : ∀ j ∈ outer, j < k) :
    permute n outer (permute k inner x) = permute n (outer.map fun j => inner.getD j 0) x := by
  have named : ∀ j ∈ outer, (permute k inner x).getLsbD j = x.getLsbD (inner.getD j 0) := by
    intro j hj
    have inInner : j < inner.length := fills ▸ inRange j hj
    rw [getLsbD_permute_of_lt inner x (inRange j hj) inInner, List.getD_eq_getElem _ _ inInner]
  refine BitVec.eq_of_getLsbD_eq fun i _ => ?_
  rw [getLsbD_permute, getLsbD_permute, List.getElem?_map]
  cases entry : outer[i]? with
  | none => rfl
  | some j => simp [named j (List.mem_of_getElem? entry)]

/-- The table that names each bit in its place changes nothing. -/
theorem permute_range {n : Nat} (x : BitVec n) : permute n (List.range n) x = x := by
  refine BitVec.eq_of_getLsbD_eq fun i hi => ?_
  rw [getLsbD_permute_of_lt _ x hi (by rwa [List.length_range]), List.getElem_range]

/-- A table undoes another one when its entries, looked up there, count the bits in order. -/
theorem permute_permute_of_inverse {n : Nat} {outer inner : List Nat} (x : BitVec n)
    (fills : inner.length = n) (inRange : ∀ j ∈ outer, j < n)
    (inverse : (outer.map fun j => inner.getD j 0) = List.range n) :
    permute n outer (permute n inner x) = x := by
  rw [permute_permute n outer inner x fills inRange, inverse, permute_range]

/-- `FP64` undoes `IP64` (R103). -/
@[simp] theorem fp64_ip64 (x : BitVec 64) : fp64 (ip64 x) = x :=
  permute_permute_of_inverse x length_IP_L (by decide) (by decide)

/-- `IP64` undoes `FP64` (R103). -/
@[simp] theorem ip64_fp64 (x : BitVec 64) : ip64 (fp64 x) = x :=
  permute_permute_of_inverse x length_FP_L (by decide) (by decide)

/-- Settles O33: each of the two tables is the other one's inverse, entry by entry. -/
theorem ipAndFpAreMutualInverses : Obligations.IpAndFpAreMutualInverses :=
  fun x => ⟨fp64_ip64 x, ip64_fp64 x⟩

/-- A word with no bit outside a mask is 0 wherever the mask is. -/
theorem getLsbD_eq_false_of_and_not_eq_zero {n : Nat} {m mask : BitVec n} (h : m &&& ~~~mask = 0)
    {j : Nat} (outside : mask.getLsbD j = false) : m.getLsbD j = false := by
  by_cases hj : j < n
  · have bit : (m &&& ~~~mask).getLsbD j = false := by simp [h]
    rw [BitVec.getLsbD_and, BitVec.getLsbD_not, outside] at bit
    simpa [hj] using bit
  · exact BitVec.getLsbD_of_ge m j (by omega)

/-- PC1 names none of the parity bits, the least significant bits of the eight key bytes (R104). -/
theorem parityMask_getLsbD_of_mem_PC1_L :
    ∀ j ∈ PC1_L, (0x0101010101010101#64).getLsbD j = false := by
  decide

/-- Settles O34: where PC1 reads, the flipped bits are 0, so the two keys have the same named bits. -/
theorem pc1DropsTheParityBits : Obligations.Pc1DropsTheParityBits := by
  intro k m parityOnly
  refine permute_congr 56 PC1_L _ _ fun j named => ?_
  have unflipped : m.getLsbD j = false :=
    getLsbD_eq_false_of_and_not_eq_zero parityOnly (parityMask_getLsbD_of_mem_PC1_L j named)
  rw [BitVec.getLsbD_xor, unflipped, Bool.xor_false]

/-- How often E reads each bit (R105). -/
theorem count_E_L : ∀ b, b < 32 → E_L.count b =
    if b ∈ [31, 28, 27, 24, 23, 20, 19, 16, 15, 12, 11, 8, 7, 4, 3, 0] then 2 else 1 := by
  decide

/-- How often PC2 reads each bit (R106). -/
theorem count_PC2_L : ∀ b, b < 56 → PC2_L.count b =
    if b ∈ [47, 38, 34, 31, 21, 18, 13, 2] then 0 else 1 := by
  decide

theorem lt_of_mem_PC2_L : ∀ b ∈ PC2_L, b < 56 := by decide

/-- A bit that PC2 reads is none of the eight it drops, since it reads these 0 times (R106). -/
theorem not_dropped_of_mem_PC2_L {b : Nat} (named : b ∈ PC2_L) :
    b ∉ [47, 38, 34, 31, 21, 18, 13, 2] := by
  intro dropped
  have unread : PC2_L.count b = 0 := by rw [count_PC2_L b (lt_of_mem_PC2_L b named), if_pos dropped]
  exact List.count_eq_zero.mp unread named

/-- `PC2_48` does not depend on the eight bits it drops (R106). -/
theorem pc2_congr {x y : PermutedKey}
    (kept : ∀ b, b < 56 → b ∉ [47, 38, 34, 31, 21, 18, 13, 2] → x.getLsbD b = y.getLsbD b) :
    pc2 x = pc2 y :=
  permute_congr 48 PC2_L x y fun b named =>
    kept b (lt_of_mem_PC2_L b named) (not_dropped_of_mem_PC2_L named)

/-- Settles O35: the two tables are counted, the count of PC2 gives what a subkey depends on, and the rules'
three examples are words that the model evaluates. -/
theorem expansionDuplicatesAndPc2Drops : Obligations.ExpansionDuplicatesAndPc2Drops :=
  ⟨count_E_L, count_PC2_L, fun _ _ => pc2_congr, by decide +kernel⟩

end Sys2Proof.Machine
end

section
/-! The eight lanes of the S-box layer (R123 to R125): nibble `i` stands at its own place in the assembled
word, and it is the table's entry itself, since no lookup leaves its table and no entry needs a fifth bit
(R127). -/

namespace Sys2Proof.Machine

open Tables

/-- Each nibble of the assembled word is the nibble of its lane, the first one the most significant (R125).
It stands above the `28 - 4 * i` bits of the nibbles after it. -/
theorem sboxLayer_extract_nibble (x : BitVec 48) {i : Nat} (lane : i < 8) :
    (sboxLayer x).extractLsb' (28 - 4 * i) 4 = nibble x i := by
  unfold sboxLayer
  match i, lane with
  | 0, _ | 1, _ | 2, _ | 3, _ | 4, _ | 5, _ | 6, _ | 7, _ =>
    simp (disch := decide) only [Nat.reduceMul, Nat.reduceSub, BitVec.extractLsb'_append_eq_of_le,
      BitVec.extractLsb'_append_eq_right, BitVec.extractLsb'_eq_self]

/-- A lane below 8 has one of the eight boxes. -/
theorem sboxes_getD_mem {i : Nat} (lane : i < 8) : sboxes.getD i [] ∈ sboxes := by
  have inArray : i < sboxes.length := lane
  rw [List.getD_eq_getElem _ _ inArray]
  exact List.getElem_mem inArray

/-- Every box has an entry for each of the 64 groups (R127). -/
theorem length_of_mem_sboxes : ∀ sd ∈ sboxes, sd.length = 64 := by decide

/-- What a lane below 8 reads for a group is an entry of its box, never the value outside the table (R127). -/
theorem sboxes_lookup_mem {i : Nat} (lane : i < 8) (g : BitVec 6) :
    (sboxes.getD i []).getD g.toNat 0 ∈ sboxes.getD i [] := by
  have inBox : g.toNat < (sboxes.getD i []).length := by
    rw [length_of_mem_sboxes _ (sboxes_getD_mem lane)]
    exact g.isLt
  rw [List.getD_eq_getElem _ _ inBox]
  exact List.getElem_mem inBox

/-- The nibble of a lane below 8 is the entry looked up, uncut, since every entry fits 4 bits (R124). -/
theorem toNat_sbox {i : Nat} (lane : i < 8) (g : BitVec 6) :
    (sbox i g).toNat = (sboxes.getD i []).getD g.toNat 0 := by
  obtain ⟨_, entry_le, _⟩ := directIndexArraysComeFromFips
  have fits : (sboxes.getD i []).getD g.toNat 0 ≤ 15 :=
    entry_le _ (sboxes_getD_mem lane) _ (sboxes_lookup_mem lane g)
  rw [sbox, BitVec.toNat_ofNat, Nat.mod_eq_of_lt (by omega)]

/-- Settles O36: the bits at the place of nibble `i` are lane `i`'s nibble, which is the entry of box `i` for
group `i`. -/
theorem sboxLanesAreIndependent : Obligations.SboxLanesAreIndependent := by
  intro x i lane
  rw [sboxLayer_extract_nibble x lane]
  exact toNat_sbox lane (group x i)

end Sys2Proof.Machine
end

section
/-! The two rotators (R141, R142). Each swaps two blocks of the half, so one law on swapped blocks gives the
bits of both; that the rotators undo each other is then arithmetic on bit positions modulo 28. -/

namespace Sys2Proof.Machine

/-- With the low `m` bits moved above the other `k`, bit `i` is the one that stood `m` places higher, counted
circularly. -/
theorem getLsbD_swap_blocks {m k i : Nat} (v : BitVec (m + k)) (h : i < m + k) :
    (v.extractLsb' 0 m ++ v.extractLsb' m k).getLsbD i = v.getLsbD ((i + m) % (m + k)) := by
  rw [BitVec.getLsbD_append, BitVec.getLsbD_extractLsb', BitVec.getLsbD_extractLsb']
  split_ifs with low
  · have stays : (i + m) % (m + k) = m + i := by rw [Nat.mod_eq_of_lt (by omega), Nat.add_comm]
    simp [low, stays]
  · have wraps : (i + m) % (m + k) = i - k := by
      rw [show i + m = i - k + (m + k) by omega, Nat.add_mod_right, Nat.mod_eq_of_lt (by omega)]
    simp [wraps, show i - k < m by omega]

/-- The bits of the left rotator (R141). -/
theorem getLsbD_rotl28 (v : HalfKey) (n : RotAmount) {i : Nat} (h : i < 28) :
    (rotl28 v n).getLsbD i = v.getLsbD ((i + (28 - n.val)) % 28) := by
  match n with
  | 0 => simp [rotl28, Nat.mod_eq_of_lt h]
  | 1 => exact getLsbD_swap_blocks (m := 27) (k := 1) v h
  | 2 => exact getLsbD_swap_blocks (m := 26) (k := 2) v h

/-- The bits of the right rotator (R142). -/
theorem getLsbD_rotr28 (v : HalfKey) (n : RotAmount) {i : Nat} (h : i < 28) :
    (rotr28 v n).getLsbD i = v.getLsbD ((i + n.val) % 28) := by
  match n with
  | 0 => simp [rotr28, Nat.mod_eq_of_lt h]
  | 1 => exact getLsbD_swap_blocks (m := 1) (k := 27) v h
  | 2 => exact getLsbD_swap_blocks (m := 2) (k := 26) v h

/-- A left rotation moves bit `i` up by the amount, circularly. -/
theorem getLsbD_rotl28_moved (v : HalfKey) (n : RotAmount) {i : Nat} (h : i < 28) :
    (rotl28 v n).getLsbD ((i + n.val) % 28) = v.getLsbD i := by
  have returns : ((i + n.val) % 28 + (28 - n.val)) % 28 = i := by omega
  rw [getLsbD_rotl28 v n (Nat.mod_lt _ (by decide)), returns]

/-- Rotating right undoes rotating left (R142). -/
@[simp] theorem rotr28_rotl28 (v : HalfKey) (n : RotAmount) : rotr28 (rotl28 v n) n = v := by
  refine BitVec.eq_of_getLsbD_eq fun i hi => ?_
  rw [getLsbD_rotr28 _ n hi, getLsbD_rotl28_moved v n hi]

/-- Rotating left undoes rotating right. -/
@[simp] theorem rotl28_rotr28 (v : HalfKey) (n : RotAmount) : rotl28 (rotr28 v n) n = v := by
  refine BitVec.eq_of_getLsbD_eq fun i hi => ?_
  have returns : ((i + (28 - n.val)) % 28 + n.val) % 28 = i := by omega
  rw [getLsbD_rotl28 _ n hi, getLsbD_rotr28 v n (Nat.mod_lt _ (by decide)), returns]

/-- Settles O38: the bits of the two rotators, and the inverse laws that follow from them. -/
theorem rotatorsAreCircular : Obligations.RotatorsAreCircular :=
  ⟨fun v n _ h => ⟨getLsbD_rotl28 v n h, getLsbD_rotr28 v n h⟩,
    fun v n => ⟨rotr28_rotl28 v n, rotl28_rotr28 v n⟩⟩

end Sys2Proof.Machine
end

section
/-! The key schedule run on one half (R143, R144, R146). The halves C and D never meet (R149), so what holds
for the state of one half holds for the pair: the left rotations of R96 sum to 28, and each right rotation of
a decryption takes back the last left rotation of the encryption (R147). -/

namespace Sys2Proof.Machine

/-- One half of the schedule's state after `r` rounds, `v` being the half at the accept. -/
def halfState (mode : Mode) (v : HalfKey) : Nat → HalfKey
  | 0 => v
  | r + 1 => rotateHalf mode r (halfState mode v r)

/-- Each half of the schedule's state depends on its own half of PC1 alone (R149). -/
theorem keyState_eq_halfState (mode : Mode) (key : Key) (r : Nat) :
    keyState mode key r =
      (halfState mode (highHalf (pc1 key)) r, halfState mode (lowHalf (pc1 key)) r) := by
  induction r with
  | zero => rfl
  | succ r ih => rw [keyState, ih]; rfl

/-- How far an encryption has rotated each half left after `r` rounds. -/
def leftTurns : Nat → Nat
  | 0 => 0
  | r + 1 => leftTurns r + (shiftAt r).val

/-- The left rotations of R96 make one full turn (R147). -/
theorem leftTurns_sixteen : leftTurns 16 = 28 := rfl

/-- The left rotations of an encryption add up. -/
theorem getLsbD_halfState_encrypt (v : HalfKey) (r : Nat) {i : Nat} (h : i < 28) :
    (halfState .encrypt v r).getLsbD ((i + leftTurns r) % 28) = v.getLsbD i := by
  induction r with
  | zero => rw [leftTurns, Nat.add_zero, Nat.mod_eq_of_lt h, halfState]
  | succ r ih =>
    have position : (i + leftTurns (r + 1)) % 28 =
        ((i + leftTurns r) % 28 + (shiftAt r).val) % 28 := by
      rw [leftTurns, Nat.mod_add_mod, Nat.add_assoc]
    rw [position, ← ih]
    exact getLsbD_rotl28_moved _ (shiftAt r) (Nat.mod_lt _ (by decide))

/-- After sixteen rounds of an encryption a half is back where it began (R148). -/
theorem halfState_encrypt_sixteen (v : HalfKey) : halfState .encrypt v 16 = v := by
  refine BitVec.eq_of_getLsbD_eq fun i hi => ?_
  have turned := getLsbD_halfState_encrypt v 16 hi
  rwa [leftTurns_sixteen, Nat.add_mod_right, Nat.mod_eq_of_lt hi] at turned

/-- The right rotation in round `r + 1` of a decryption takes back the left rotation in round `15 - r` of an
encryption, since the two have the same amount (R144). -/
theorem rotateHalf_decrypt_encrypt (v : HalfKey) {r : Nat} (h : r + 1 ≤ 15) :
    rotateHalf .decrypt (r + 1) (rotateHalf .encrypt (15 - r) v) = v := by
  have amounts : amount .decrypt (r + 1) = amount .encrypt (15 - r) := by
    rw [amount, amount, rshiftAt, if_neg (by omega), show 16 - (r + 1) = 15 - r by omega]
  rw [rotateHalf, rotateHalf, amounts, rotr28_rotl28]

/-- The states of a decryption are those of an encryption in reverse (R147). -/
theorem halfState_decrypt_eq_encrypt (v : HalfKey) (r : Nat) (h : r ≤ 15) :
    halfState .decrypt v (r + 1) = halfState .encrypt v (16 - r) := by
  induction r with
  | zero => exact (halfState_encrypt_sixteen v).symm
  | succ r ih =>
    calc halfState .decrypt v (r + 2)
        = rotateHalf .decrypt (r + 1) (halfState .decrypt v (r + 1)) := rfl
      _ = rotateHalf .decrypt (r + 1) (halfState .encrypt v (15 - r + 1)) := by
        rw [ih (by omega), show 16 - r = 15 - r + 1 by omega]
      _ = halfState .encrypt v (16 - (r + 1)) := by
        rw [halfState, rotateHalf_decrypt_encrypt _ h, show 16 - (r + 1) = 15 - r by omega]

theorem keyState_decrypt_eq_encrypt (key : Key) {r : Nat} (h : r ≤ 15) :
    keyState .decrypt key (r + 1) = keyState .encrypt key (16 - r) := by
  rw [keyState_eq_halfState, keyState_eq_halfState, halfState_decrypt_eq_encrypt _ r h,
    halfState_decrypt_eq_encrypt _ r h]

/-- The subkeys follow the states (R147). -/
theorem subkey_decrypt_eq_encrypt (key : Key) {r : Nat} (h : r ≤ 15) :
    subkey key .decrypt r = subkey key .encrypt (15 - r) := by
  rw [subkey, subkey, keyState_decrypt_eq_encrypt key h, show 16 - r = 15 - r + 1 by omega]

/-- Settles O41: the states mirror each other half by half, and a subkey is a function of the state. -/
theorem decryptionSubkeysMirrorEncryption : Obligations.DecryptionSubkeysMirrorEncryption :=
  fun key _ h => ⟨subkey_decrypt_eq_encrypt key h, keyState_decrypt_eq_encrypt key h⟩

/-- Settles O40: after a round step each half is the rotation of the same half before it. -/
theorem keyHalvesAreIndependent : Obligations.KeyHalvesAreIndependent := by
  intro ctl s t
  refine ⟨fun sameC => ?_, fun sameD => ?_⟩
  · rw [roundStep_c, roundStep_c, sameC]
  · rw [roundStep_d, roundStep_d, sameD]

end Sys2Proof.Machine
end

section
/-! The round function and the key schedule on complements (R120, R168). Complementing the key complements
every subkey, and complementing the half as well leaves the argument of the S-boxes as it was. -/

namespace Sys2Proof.Machine

open Tables

@[simp] theorem ip64_not (x : BitVec 64) : ip64 (~~~x) = ~~~ip64 x :=
  permute_not 64 IP_L x length_IP_L (by decide)

@[simp] theorem fp64_not (x : BitVec 64) : fp64 (~~~x) = ~~~fp64 x :=
  permute_not 64 FP_L x length_FP_L (by decide)

@[simp] theorem e48_not (r : Half) : e48 (~~~r) = ~~~e48 r :=
  permute_not 48 E_L r length_E_L (by decide)

@[simp] theorem pc1_not (key : Key) : pc1 (~~~key) = ~~~pc1 key :=
  permute_not 56 PC1_L key length_PC1_L (by decide)

@[simp] theorem pc2_not (cd : PermutedKey) : pc2 (~~~cd) = ~~~pc2 cd :=
  permute_not 48 PC2_L cd length_PC2_L (by decide)

/-- A field of the complement is the complement of the field. -/
theorem extractLsb'_not {w start len : Nat} (x : BitVec w) (inWord : start + len ≤ w) :
    (~~~x).extractLsb' start len = ~~~x.extractLsb' start len := by
  refine BitVec.eq_of_getLsbD_eq fun i hi => ?_
  simp [hi, show start + i < w by omega]

@[simp] theorem leftHalf_not (x : BitVec 64) : leftHalf (~~~x) = ~~~leftHalf x :=
  extractLsb'_not x (by decide)

@[simp] theorem rightHalf_not (x : BitVec 64) : rightHalf (~~~x) = ~~~rightHalf x :=
  extractLsb'_not x (by decide)

@[simp] theorem highHalf_not (cd : PermutedKey) : highHalf (~~~cd) = ~~~highHalf cd :=
  extractLsb'_not cd (by decide)

@[simp] theorem lowHalf_not (cd : PermutedKey) : lowHalf (~~~cd) = ~~~lowHalf cd :=
  extractLsb'_not cd (by decide)

/-- The two complements cancel in `E48(R) xor K` (R120). -/
theorem roundF_not_not (r : Half) (k : Subkey) : roundF (~~~r) (~~~k) = roundF r k := by
  have cancel : e48 (~~~r) ^^^ ~~~k = e48 r ^^^ k := by
    rw [e48_not, ← BitVec.not_xor_left, ← BitVec.not_xor_right, BitVec.not_not]
  rw [roundF, roundF, cancel]

/-- A map that only moves the bits of a half around commutes with the complement. -/
theorem map_not_of_moved_bits {move : HalfKey → HalfKey} {source : Nat → Nat}
    (moved : ∀ v i, i < 28 → (move v).getLsbD i = v.getLsbD (source i % 28)) (v : HalfKey) :
    move (~~~v) = ~~~move v := by
  refine BitVec.eq_of_getLsbD_eq fun i hi => ?_
  have inHalf : source i % 28 < 28 := Nat.mod_lt _ (by decide)
  rw [moved _ i hi, BitVec.getLsbD_not, BitVec.getLsbD_not, moved v i hi]
  simp only [inHalf, hi]

@[simp] theorem rotl28_not (v : HalfKey) (n : RotAmount) : rotl28 (~~~v) n = ~~~rotl28 v n :=
  map_not_of_moved_bits (move := (rotl28 · n)) (fun v _ h => getLsbD_rotl28 v n h) v

@[simp] theorem rotr28_not (v : HalfKey) (n : RotAmount) : rotr28 (~~~v) n = ~~~rotr28 v n :=
  map_not_of_moved_bits (move := (rotr28 · n)) (fun v _ h => getLsbD_rotr28 v n h) v

theorem rotateHalf_not (mode : Mode) (r : Nat) (v : HalfKey) :
    rotateHalf mode r (~~~v) = ~~~rotateHalf mode r v := by
  cases mode with
  | encrypt => exact rotl28_not v _
  | decrypt => exact rotr28_not v _

theorem halfState_not (mode : Mode) (v : HalfKey) (r : Nat) :
    halfState mode (~~~v) r = ~~~halfState mode v r := by
  induction r with
  | zero => rfl
  | succ r ih => rw [halfState, ih, rotateHalf_not, halfState]

theorem subkeyOf_not (c d : HalfKey) : subkeyOf (~~~c) (~~~d) = ~~~subkeyOf c d := by
  rw [subkeyOf, ← BitVec.not_append]
  exact pc2_not (c ++ d)

/-- Complementing the key complements every subkey. -/
theorem subkey_not (key : Key) (mode : Mode) (r : Nat) :
    subkey (~~~key) mode r = ~~~subkey key mode r := by
  simp only [subkey, keyState_eq_halfState, pc1_not, highHalf_not, lowHalf_not, halfState_not,
    subkeyOf_not]

end Sys2Proof.Machine
end

section
/-! The block function (R160 to R164) as a Feistel network. A round is undone by the same round on the halves
swapped, so a second pass with the subkeys in reverse order walks back through the states of the first one,
each with its halves swapped (R165). A pass depends on the mode through the subkeys alone (R169),
and it carries the complement of the halves along (R168). -/

namespace Sys2Proof.Machine

/-- The same round on the swapped halves undoes a round (R165). -/
theorem feistelRound_swap_feistelRound (k : Subkey) (lr : Half × Half) :
    feistelRound k (feistelRound k lr).swap = lr.swap := by
  have cancel : lr.1 ^^^ roundF lr.2 k ^^^ roundF lr.2 k = lr.1 := by
    rw [BitVec.xor_assoc, BitVec.xor_self, BitVec.xor_zero]
  simp only [feistelRound, Prod.swap, cancel]

/-- The terminal stage followed by the initial one swaps the halves (R161, R163). -/
theorem halvesAfter_des_zero (mode mode' : Mode) (key : Key) (block : Block) :
    halvesAfter mode' key (des mode key block) 0 = (halvesAfter mode key block 16).swap := by
  rw [halvesAfter, des, terminal, ip64_fp64, leftHalf_append, rightHalf_append, Prod.swap]

/-- A pass whose subkeys are those of another one in reverse order walks back through its states, swapped. -/
theorem halvesAfter_des_of_reverse {mode mode' : Mode} {key : Key}
    (reverse : ∀ r ≤ 15, subkey key mode' r = subkey key mode (15 - r)) (block : Block) {r : Nat}
    (h : r ≤ 16) :
    halvesAfter mode' key (des mode key block) r = (halvesAfter mode key block (16 - r)).swap := by
  induction r with
  | zero => exact halvesAfter_des_zero mode mode' key block
  | succ r ih =>
    have previous : halvesAfter mode key block (16 - r) =
        feistelRound (subkey key mode (15 - r)) (halvesAfter mode key block (15 - r)) := by
      rw [show 16 - r = 15 - r + 1 by omega, halvesAfter]
    rw [halvesAfter, ih (by omega), previous, reverse r (by omega), feistelRound_swap_feistelRound,
      show 16 - (r + 1) = 15 - r by omega]

/-- The final swap of the first pass is what makes the second one end on the block itself. -/
theorem des_des_of_reverse {mode mode' : Mode} {key : Key}
    (reverse : ∀ r ≤ 15, subkey key mode' r = subkey key mode (15 - r)) (block : Block) :
    des mode' key (des mode key block) = block := by
  rw [des, halvesAfter_des_of_reverse reverse block le_rfl, Nat.sub_self, halvesAfter, Prod.swap, terminal,
    leftHalf_append_rightHalf, fp64_ip64]

/-- The encryption schedule is the decryption schedule in reverse, too (R147). -/
theorem subkey_encrypt_eq_decrypt (key : Key) {r : Nat} (h : r ≤ 15) :
    subkey key .encrypt r = subkey key .decrypt (15 - r) := by
  rw [subkey_decrypt_eq_encrypt key (Nat.sub_le 15 r), Nat.sub_sub_self h]

/-- Settles O43: each schedule is the other one in reverse. -/
theorem decryptionUndoesEncryption : Obligations.DecryptionUndoesEncryption := fun key block =>
  ⟨des_des_of_reverse (fun _ => subkey_decrypt_eq_encrypt key) block,
    des_des_of_reverse (fun _ => subkey_encrypt_eq_decrypt key) block⟩

/-- A round with everything complemented gives the complemented halves (R168). -/
theorem feistelRound_not (k : Subkey) (l r : Half) :
    feistelRound (~~~k) (~~~l, ~~~r) = (~~~(feistelRound k (l, r)).1, ~~~(feistelRound k (l, r)).2) := by
  simp only [feistelRound, roundF_not_not, BitVec.not_xor_left]

theorem halvesAfter_not (mode : Mode) (key : Key) (block : Block) (r : Nat) :
    halvesAfter mode (~~~key) (~~~block) r =
      (~~~(halvesAfter mode key block r).1, ~~~(halvesAfter mode key block r).2) := by
  induction r with
  | zero => simp [halvesAfter]
  | succ r ih => rw [halvesAfter, ih, subkey_not, feistelRound_not, halvesAfter]

theorem terminal_not (l r : Half) : terminal (~~~l) (~~~r) = ~~~terminal l r := by
  rw [terminal, ← BitVec.not_append, fp64_not, terminal]

/-- Settles O44: the complement passes through the initial stage, every round and the terminal stage. -/
theorem complementationProperty : Obligations.ComplementationProperty := fun mode key block => by
  rw [des, halvesAfter_not, terminal_not, des]

/-- The halves depend on the mode through the subkeys alone. -/
theorem halvesAfter_congr {mode mode' : Mode} {key : Key} {n : Nat}
    (same : ∀ r < n, subkey key mode r = subkey key mode' r) (block : Block) :
    halvesAfter mode key block n = halvesAfter mode' key block n := by
  induction n with
  | zero => rfl
  | succ n ih =>
    rw [halvesAfter, halvesAfter, ih fun r h => same r (by omega), same n (Nat.lt_succ_self n)]

theorem des_congr {mode mode' : Mode} {key : Key}
    (same : ∀ r < 16, subkey key mode r = subkey key mode' r) (block : Block) :
    des mode key block = des mode' key block := by
  rw [des, des, halvesAfter_congr same block]

/-- A schedule of equal subkeys reads the same in reverse (R169). -/
theorem subkey_encrypt_eq_decrypt_of_equal {key : Key}
    (equal : ∀ r < 16, subkey key .encrypt r = subkey key .encrypt 0) :
    ∀ r < 16, subkey key .encrypt r = subkey key .decrypt r := fun r h => by
  rw [subkey_decrypt_eq_encrypt key (by omega), equal r h, equal (15 - r) (by omega)]

theorem rotateHalf_zero (mode : Mode) (r : Nat) : rotateHalf mode r 0 = 0 := by
  have left : ∀ n : RotAmount, rotl28 0 n = 0 := by decide
  have right : ∀ n : RotAmount, rotr28 0 n = 0 := by decide
  cases mode with
  | encrypt => exact left _
  | decrypt => exact right _

theorem halfState_zero (mode : Mode) (r : Nat) : halfState mode 0 r = 0 := by
  induction r with
  | zero => rfl
  | succ r ih => rw [halfState, ih, rotateHalf_zero]

/-- A key whose bits outside the parity bits are all 0 has zero subkeys, since no rotation moves a bit in. -/
theorem subkey_of_pc1_eq_zero {key : Key} (h : pc1 key = 0) (mode : Mode) (r : Nat) :
    subkey key mode r = 0 := by
  have high : highHalf (0 : PermutedKey) = 0 := by decide
  have low : lowHalf (0 : PermutedKey) = 0 := by decide
  rw [subkey, keyState_eq_halfState, h, high, low, halfState_zero]
  exact permute_zero 48 Tables.PC2_L 56

/-- PC1 drops all that the all-parity key holds (R104). -/
theorem pc1_parityBits : pc1 parityBits = 0 :=
  calc pc1 parityBits = pc1 (0#64 ^^^ parityBits) := by rw [BitVec.zero_xor]
    _ = pc1 0#64 := pc1DropsTheParityBits 0 parityBits (by decide)
    _ = 0 := permute_zero 56 Tables.PC1_L 64

/-- Settles O45: with equal subkeys the two modes agree round by round, and the all-parity key has only zero
subkeys. -/
theorem equalSubkeysMakeEncryptionAnInvolution : Obligations.EqualSubkeysMakeEncryptionAnInvolution := by
  refine ⟨fun key equal => ?_, fun r _ => ?_⟩
  · have same := subkey_encrypt_eq_decrypt_of_equal equal
    refine ⟨List.map_congr_left fun r h => same r (List.mem_range.mp h), fun block =>
      ⟨des_congr same block, ?_⟩⟩
    rw [des_congr same (des .encrypt key block)]
    exact (decryptionUndoesEncryption key block).1
  · have zeroSubkeys := subkey_of_pc1_eq_zero pc1_parityBits .encrypt
    exact (zeroSubkeys r).trans (zeroSubkeys 0).symm

end Sys2Proof.Machine
end

section
/-! One core step with no reset (R180), as the four commands and the engine see it. With no block in flight a
command has its own effect (R181 to R184, R188); with one in flight the engine advances by one round
(R185) or ends the block (R186), and the command leaves no trace but its response (R187). -/

namespace Sys2Proof.Machine

theorem exec_of_idle {s : State} {ctl : Control} (hs : s.ctl = some ctl) (hb : ctl.busy = false)
    (i : Instr) : exec i s = .next (idleEffect i s ctl) := by
  simp [exec_of_ctl hs, hb]

theorem exec_of_busy {s : State} {ctl : Control} (hs : s.ctl = some ctl) (hb : ctl.busy = true)
    (i : Instr) :
    exec i s = .next ((engineStep ctl s).respond (if i.op = 0b00#2 then .ok else .busy)) := by
  simp [exec_of_ctl hs, hb]

/-- A NOP is a step with no command, whatever its operand (R181). -/
theorem exec_nop (data : BitVec 64) (s : State) : exec (.nop data) s = idleStep s := rfl

theorem idleStep_of_busy {s : State} {ctl : Control} (hs : s.ctl = some ctl) (hb : ctl.busy = true) :
    idleStep s = .next ((engineStep ctl s).respond .ok) :=
  exec_of_busy hs hb (.nop 0)

/-- Settles O15: the command's step and the step with no command are the same engine's step, and a later
response replaces an earlier one. -/
theorem commandsRefusedWhileBusy : Obligations.CommandsRefusedWhileBusy := by
  intro i s ctl hs hb notNop
  have refused : exec i s = .next ((engineStep ctl s).respond .busy) := by
    rw [exec_of_busy hs hb, if_neg notNop]
  exact ⟨refused, (engineStep ctl s).respond .ok, idleStep_of_busy hs hb, refused⟩

/-- Settles O11: NOP's idle effect is the response alone, and the decoder turns a NOP on the port into the
step with no command. -/
theorem nopWritesNothing : Obligations.NopWritesNothing := by
  refine ⟨fun data s ctl hs hb => exec_of_idle hs hb (.nop data),
    fun data s ctl hs hb => exec_of_busy hs hb (.nop data), ?sameAsNoCommand, ?inReset⟩
  case sameAsNoCommand =>
    intro data data' op s
    rw [clockEdge_command rfl rfl, clockEdge_idle rfl rfl, Pins.word, decode_append, if_pos rfl, exec_nop]
  case inReset => exact fun data s => ⟨_, clockEdge_reset rfl s, rfl⟩

/-- Settles O12: once the key is loaded, loading it again writes what KEY and KEY_VALID hold already. -/
theorem ldkeyLoadsTheKey : Obligations.LdkeyLoadsTheKey := by
  refine ⟨fun key s ctl hs hb => exec_of_idle hs hb (.ldkey key),
    fun key s ctl hs hb => ⟨exec_of_busy hs hb (.ldkey key), engineStep_key ctl s⟩, ?twice,
    _, rfl, rfl, rfl⟩
  case twice =>
    intro key s t ctl hs hb once
    rw [exec_of_idle hs hb] at once
    cases once
    have idle : ({ ctl with keyValid := true } : Control).busy = false := hb
    exact exec_of_idle rfl idle (.ldkey key)

/-- What ENC and DEC have in common with no block in flight (R183, R184, R188). -/
theorem exec_blockInstr_of_idle {s : State} {ctl : Control} (hs : s.ctl = some ctl)
    (hb : ctl.busy = false) (mode : Mode) (block : Block) :
    exec (blockInstr mode block) s = .next
      (if ctl.keyValid then (accept mode block ctl s).respond .ok else s.respond .noKey) := by
  cases mode with
  | encrypt => exact exec_of_idle hs hb (.enc block)
  | decrypt => exact exec_of_idle hs hb (.dec block)

/-- Settles O16, for both modes at once. -/
theorem blockCommandsRefusedWithoutKey : Obligations.BlockCommandsRefusedWithoutKey := by
  intro mode block s ctl hs hb noKey
  rw [exec_blockInstr_of_idle hs hb, noKey]
  rfl

/-- The effect of the command on the port with no block in flight, by `cmd_op` (R62, R180). -/
theorem idleEffect_decode_word (p : Pins) (s : State) (ctl : Control) :
    idleEffect (decode p.word) s ctl =
      if p.cmdOp = 0b00#2 then s.respond .ok
      else if p.cmdOp = 0b01#2 then
        ({ s with key := some p.cmdData, ctl := some { ctl with keyValid := true } } : State).respond .ok
      else if ctl.keyValid = false then s.respond .noKey
      else (accept (if p.cmdOp = 0b10#2 then .encrypt else .decrypt) p.cmdData ctl s).respond .ok := by
  rw [Pins.word, decode_append]
  simp only [← Bool.not_eq_true, ite_not]
  obtain op | op | op | op := opcode_cases p.cmdOp <;> simp [op, idleEffect]

/-- The choice of the engine between its two steps, with R5's number of rounds written out. -/
theorem engineStep_eq_ite (ctl : Control) (s : State) :
    engineStep ctl s = if ctl.round.toNat < 16 then roundStep ctl s else finalStep ctl s := rfl

/-- Settles O7: the branches of R180 are those of a reset edge, of an edge with a block in flight and of an
edge without one, which goes by the opcode on the port. -/
theorem coreStepBranches : Obligations.CoreStepBranches := by
  intro s p rest hscript
  refine ⟨?reset, ?busy, ?idle⟩
  case reset =>
    intro hrst
    rw [step_drive hscript, clockEdge_reset hrst]
    rfl
  case busy =>
    intro ctl hs hrst hb
    rw [step_drive_busy hscript hrst hs hb, engineStep_eq_ite]
    rfl
  case idle =>
    intro ctl hs hrst hb
    cases hv : p.cmdValid with
    | false =>
      rw [step_drive_quiet hscript hrst hv hs hb, if_pos (.inl rfl)]
      rfl
    | true =>
      rw [step_drive_idle hscript hrst hv hs hb, idleEffect_decode_word]
      simp only [Bool.true_eq_false, false_or]
      rfl

/-- The rotation of one half in one round: left by R96's amount to encrypt, right by R144's to decrypt. -/
theorem rotateHalf_eq_ite (mode : Mode) (r : Nat) (v : HalfKey) :
    rotateHalf mode r v = if mode = .encrypt then rotl28 v (shiftAt r) else rotr28 v (rshiftAt r) := by
  cases mode <;> rfl

/-- The amounts of a decryption as the table of R144. -/
theorem rshiftAt_eq_getD : ∀ r < 16,
    rshiftAt r = [0, 1, 2, 2, 2, 2, 2, 2, 1, 2, 2, 2, 2, 2, 2, 1].getD r 0 := by
  decide

/-- The round step where no register that it reads is `⊥` (R185). -/
theorem roundStep_of_known {s : State} {l r : Half} {c d : HalfKey} (hl : s.l = some l)
    (hr : s.r = some r) (hc : s.c = some c) (hd : s.d = some d) (ctl : Control) :
    roundStep ctl s =
      { s with
        l := some r
        r := some (l ^^^ roundF r (subkeyOf (rotateHalf ctl.mode ctl.round.toNat c)
          (rotateHalf ctl.mode ctl.round.toNat d)))
        c := some (rotateHalf ctl.mode ctl.round.toNat c)
        d := some (rotateHalf ctl.mode ctl.round.toNat d)
        ctl := some { ctl with round := ctl.round + 1 } } := by
  apply State.ext_fields <;> simp [hl, hr, hc, hd]

/-- Settles O20: with ROUND < 16 the engine's step is the round step, and its rotations are those of the two
tables. -/
theorem roundStepRunsOneRound : Obligations.RoundStepRunsOneRound := by
  intro s p rest ctl l r c d hscript hrst hs hb hround hl hr hc hd shifts rshifts c' d'
  have rotated (v : HalfKey) : rotateHalf ctl.mode ctl.round.toNat v =
      if ctl.mode = .encrypt then rotl28 v (shifts.getD ctl.round.toNat 0)
      else rotr28 v (rshifts.getD ctl.round.toNat 0) := by
    rw [rotateHalf_eq_ite, rshiftAt_eq_getD _ hround]
    rfl
  rw [step_drive_busy hscript hrst hs hb, engineStep_eq_ite, if_pos hround,
    roundStep_of_known hl hr hc hd, rotated, rotated]
  rfl

/-- The final step where neither half is `⊥` (R186). -/
theorem finalStep_of_known {s : State} {l r : Half} (hl : s.l = some l) (hr : s.r = some r)
    (ctl : Control) :
    finalStep ctl s =
      { s with
        dout := some (fp64 (r ++ l))
        ctl := some { ctl with doutValid := true, busy := false, round := 0 } } := by
  apply State.ext_fields <;> simp [hl, hr, terminal]

/-- Settles O21: with ROUND = 16 the engine's step is the final step. -/
theorem finalStepWritesTheResult : Obligations.FinalStepWritesTheResult := by
  intro s p rest ctl l r hscript hrst hs hb hround hl hr
  have lastRound : ¬ctl.round.toNat < 16 := by omega
  rw [step_drive_busy hscript hrst hs hb, engineStep_eq_ite, if_neg lastRound, finalStep_of_known hl hr]
  rfl

end Sys2Proof.Machine
end

section
/-! Reset and what precedes it. A reset step drops the command on the port and leaves it RST (R221). Before
the first reset every other step is a fault of the run (R222); after one the core waits idle. -/

namespace Sys2Proof.Machine

/-- A command on the port changes nothing of a reset step but the response (R221). -/
theorem resetStep_command (s : State) : resetStep true s = (resetStep false s).respond .rst := rfl

/-- Settles O24: the edge is a reset step with or without the command, which leaves its response alone. -/
theorem commandsDroppedDuringReset : Obligations.CommandsDroppedDuringReset := by
  intro op op' data data' s
  refine ⟨resetStep false s, clockEdge_reset rfl s, ?_⟩
  rw [clockEdge_reset rfl, resetStep_command]
  rfl

theorem exec_before_reset {s : State} (hs : s.ctl = none) (i : Instr) :
    exec i s = .fault .stepBeforeReset := by
  rw [exec_eq_commandStep, commandStep_before_reset hs]

/-- Without `rst` an edge before the first reset is a fault, whether or not a command is on the port
(R222). -/
theorem clockEdge_before_reset {p : Pins} {s : State} (hs : s.ctl = none) (hr : p.rst = false) :
    clockEdge p s = .fault .stepBeforeReset := by
  cases hv : p.cmdValid with
  | false => rw [clockEdge_idle hr hv, idleStep, commandStep_before_reset hs]
  | true => rw [clockEdge_command hr hv, exec_before_reset hs]

/-- With no block in flight an edge with neither command nor reset writes no register (R180). -/
theorem clockEdge_quiet_of_idle {p : Pins} {s : State} {ctl : Control} (hr : p.rst = false)
    (hv : p.cmdValid = false) (hs : s.ctl = some ctl) (hb : ctl.busy = false) :
    clockEdge p s = .next (s.respond .ok) := by
  simp [clockEdge_idle hr hv, idleStep, commandStep_of_ctl hs, hb]

/-- Settles O25: a step with `rst = 0` needs the control registers, which only a reset step provides, and it
provides them with BUSY at 0. -/
theorem stepsBeforeResetAreFaults : Obligations.StepsBeforeResetAreFaults := by
  refine ⟨⟨rfl, rfl, rfl, rfl, rfl, rfl, rfl⟩, fun p s => clockEdge_before_reset,
    fun i s hs => exec_before_reset hs i, ?afterReset⟩
  case afterReset =>
    intro p s _ hrst
    refine ⟨resetStep p.cmdValid s, clockEdge_reset hrst s, resetStep_ctl _ _, fun q hq hv => ?_⟩
    exact clockEdge_quiet_of_idle hq hv (resetStep_ctl _ _) rfl

end Sys2Proof.Machine
end

section
/-! Decoding and encoding as inverse maps between commands and command words (R61, R65), and the step of the
machine that presents a command word. -/

namespace Sys2Proof

/-- The decoder reads an encoded command back, operand and all (R61). -/
@[simp] theorem decode_encode (i : Instr) : decode (encode i) = i := by
  rw [encode, decode_append]
  cases i <;> rfl

/-- A command word is the encoding of the command that it decodes to (R65). -/
@[simp] theorem encode_decode (w : CommandWord) : encode (decode w) = w := by
  rw [← opField_append_dataField w, decode_append]
  obtain op | op | op | op := opcode_cases (opField w) <;> simp [op, encode, Instr.op, Instr.data]

/-- The number of a command word is never refused (R61). -/
theorem decodeNat_toNat (w : CommandWord) : decodeNat w.toNat = .ok (decode w) := by
  simp [decodeNat, commandWordFits, w.isLt]

/-- Reading 72 bits of the number of a command word reads all of it. -/
theorem decodeTableWord_toNat (w : CommandWord) : decodeTableWord 72 w.toNat = some (decode w) := by
  rw [decodeTableWord, Nat.mod_eq_of_lt (w.isLt.trans (by decide)), decodeNat_toNat]

/-- The decoder refuses the numbers with more than 66 bits and no others (R61, R67). -/
theorem decodeNat_eq_error_iff (n : Nat) : decodeNat n = .error .wordTooWide ↔ 2 ^ 66 ≤ n := by
  rw [decodeNat, commandWordFits, ← Nat.not_lt]
  split_ifs with fits <;> simpa using fits

/-- Settles O2: encoding and decoding undo each other, and a number is decoded exactly where it is that of a
command word. -/
theorem decodeAndEncodeAgree : Obligations.DecodeAndEncodeAgree := by
  refine ⟨fun i _ => ⟨decode_encode i, ?_⟩, fun w => ⟨encode_decode w, decodeTableWord_toNat w⟩,
    decodeNat_eq_error_iff⟩
  rw [decodeNat_toNat, decode_encode]

/-- Settles O3: each of the five words is the encoding of its command. -/
theorem writtenCommandWordsDecode : Obligations.WrittenCommandWordsDecode :=
  ⟨decode_encode (.nop 0), decode_encode (.nop 0xFFFFFFFFFFFFFFFF),
    decode_encode (.ldkey 0x133457799BBCDFF1), decode_encode (.enc 0x0123456789ABCDEF),
    decode_encode (.dec 0x85E813540F0AB405)⟩

namespace Machine

/-- The word that a command line puts on the ports, field by field (R61, R68). -/
theorem present_encode (i : Instr) : Pins.present (encode i) =
    { rst := false, cmdValid := true, cmdOp := i.op, cmdData := i.data } := by
  simp [Pins.present, encode]

/-- A step whose host action presents a command word runs the decoded command (R180). -/
theorem step_present {s : State} {w : CommandWord} {rest : List HostAct}
    (h : s.script = HostAct.present w :: rest) :
    step s = exec (decode w) { s with script := rest } := by
  rw [step_drive h, clockEdge_command (rst_present w) (cmdValid_present w), word_present]

/-- Settles O6: the edge that the host's action leads to is one with a command, and a word that is placed is
read back whole. -/
theorem stepRunsThePresentedCommand : Obligations.StepRunsThePresentedCommand := by
  refine ⟨fun s p rest h hr hv => ?port, fun s i rest h => ?encoded, fun s nbits w wide fits => ?placed⟩
  case port => rw [step_drive h, clockEdge_command hr hv]
  case encoded => rw [step_present h, decode_encode]
  case placed =>
    have whole : w % 2 ^ nbits = w :=
      Nat.mod_eq_of_lt (fits.trans_le (Nat.pow_le_pow_right (by decide) wide))
    rw [step_present (withFetchWord_script s nbits w), whole]
    rfl

end Machine

end Sys2Proof
end

section
/-! The invariants of rule R35, one operation at a time. They speak of the registers alone, and a block in
flight goes through the stages of rule R167: the accept step, sixteen rounds and the final step. -/

namespace Sys2Proof.Machine

/-- The accept step puts the block at stage 0 of rule R167. -/
theorem inFlight_accept {s : State} {key : Key} (hk : s.key = some key) (mode : Mode) (block : Block)
    (ctl : Control) :
    InFlight { ctl with mode := mode, round := 0, busy := true, doutValid := false } key block
      (accept mode block ctl s) where
  key_latched := hk
  c_rotated := by simp [hk, keyState]
  d_rotated := by simp [hk, keyState]
  l_halves := rfl
  r_halves := rfl

/-- The round step takes a block in flight from one stage of rule R167 to the next. -/
theorem InFlight.roundStep {s : State} {ctl : Control} {key : Key} {block : Block}
    (h : InFlight ctl key block s) (hround : ctl.round.toNat < 16) :
    InFlight { ctl with round := ctl.round + 1 } key block (roundStep ctl s) := by
  obtain ⟨hk, hc, hd, hl, hr⟩ := h
  have next := round_succ ctl.round hround
  constructor <;>
    simp only [roundStep_of_known hl hr hc hd, next, hk, keyState, halvesAfter, feistelRound, subkey]

/-- The final step ends a block in flight with the block function's value (R163, R186). -/
theorem InFlight.dout_finalStep {s : State} {ctl : Control} {key : Key} {block : Block}
    (h : InFlight ctl key block s) (hround : ctl.round.toNat = 16) :
    (finalStep ctl s).dout = some (des ctl.mode key block) := by
  rw [finalStep_dout, h.l_halves, h.r_halves, map2_some, hround, des]

/-- A block in flight is a matter of the key and the four registers of the engine. -/
theorem InFlight.congr {s t : State} {ctl : Control} {key : Key} {block : Block}
    (h : InFlight ctl key block s) (hk : t.key = s.key) (hl : t.l = s.l) (hr : t.r = s.r)
    (hc : t.c = s.c) (hd : t.d = s.d) : InFlight ctl key block t :=
  ⟨hk.trans h.key_latched, hc.trans h.c_rotated, hd.trans h.d_rotated, hl.trans h.l_halves,
    hr.trans h.r_halves⟩

/-- What rule R35 asks for while a block is in flight: items 3 and 5 follow from the block's stage. -/
theorem InFlight.registersOk {s : State} {ctl : Control} {key : Key} {block : Block}
    (h : InFlight ctl key block s) (hround : ctl.round.toNat ≤ 16) (hb : ctl.busy = true)
    (hkey : ctl.keyValid = true) (hdout : ctl.doutValid = false) : RegistersOk ctl s := by
  constructor
  case round_le => exact hround
  case in_flight => exact fun _ => ⟨key, block, h⟩
  all_goals
    simp [h.key_latched, h.c_rotated, h.d_rotated, h.l_halves, h.r_halves, hb, hkey, hdout]

/-- What rule R35 asks for while none is in flight: a value behind each of the two valid flags (R22, R29). -/
theorem registersOk_of_idle {s : State} {ctl : Control} (hb : ctl.busy = false) (hround : ctl.round = 0)
    (hkey : ctl.keyValid = true → s.key ≠ none) (hdout : ctl.doutValid = true → s.dout ≠ none) :
    RegistersOk ctl s := by
  constructor
  case key_known => exact hkey
  case result_known => exact hdout
  all_goals simp [hb, hround]

/-- Where the control registers hold `ctl`, the invariant is what rule R35 says of `ctl`. -/
theorem coreInvariant_iff {s : State} {ctl : Control} (hs : s.ctl = some ctl) :
    CoreInvariant s ↔ RegistersOk ctl s := by
  simp [CoreInvariant, hs]

/-- No result is valid while a block is in flight (R35 item 4). -/
theorem RegistersOk.doutValid_of_busy {s : State} {ctl : Control} (ok : RegistersOk ctl s)
    (hb : ctl.busy = true) : ctl.doutValid = false := by
  rw [← Bool.not_eq_true]
  exact fun valid => Bool.noConfusion (hb.symm.trans (ok.result_idle valid))

/-- The invariant speaks of the core's registers alone. -/
theorem CoreInvariant.congr {s t : State} (h : CoreInvariant s) (hctl : t.ctl = s.ctl)
    (hk : t.key = s.key) (hl : t.l = s.l) (hr : t.r = s.r) (hc : t.c = s.c) (hd : t.d = s.d)
    (hdout : t.dout = s.dout) : CoreInvariant t := by
  intro ctl ht
  have ok := h ctl (hctl.symm.trans ht)
  cases hb : ctl.busy with
  | true =>
    obtain ⟨key, block, flight⟩ := ok.in_flight hb
    exact (flight.congr hk hl hr hc hd).registersOk ok.round_le hb (ok.busy_key hb)
      (ok.doutValid_of_busy hb)
  | false =>
    exact registersOk_of_idle hb (ok.idle_round hb) (hk ▸ ok.key_known) (hdout ▸ ok.result_known)

theorem CoreInvariant.respond {s : State} (h : CoreInvariant s) (x : Resp) :
    CoreInvariant (s.respond x) :=
  h.congr rfl rfl rfl rfl rfl rfl rfl

theorem CoreInvariant.afterTurn {s : State} (h : CoreInvariant s) (turn : HostTurn) :
    CoreInvariant (s.afterTurn turn) :=
  h.congr rfl rfl rfl rfl rfl rfl rfl

/-- With all flags at 0 rule R35 claims nothing but ROUND at 0 (R220). -/
theorem registersOk_reset (s : State) : RegistersOk Control.reset s :=
  registersOk_of_idle rfl rfl nofun nofun

/-- Settles O47: the flags of the reset state are 0, and the power-on state has no control registers. -/
theorem invariantHoldsAtReset : Obligations.InvariantHoldsAtReset :=
  ⟨(coreInvariant_iff rfl).mpr (registersOk_reset _), nofun⟩

theorem CoreInvariant.resetStep (s : State) (cmdValid : Bool) :
    CoreInvariant (resetStep cmdValid s) :=
  (coreInvariant_iff rfl).mpr (registersOk_reset _)

section
variable {s : State} {ctl : Control} (ok : RegistersOk ctl s)
include ok

/-- A loaded key is known, and loading one disturbs no block in flight, as there is none (R182). -/
theorem RegistersOk.loadKey (hb : ctl.busy = false) (key : Key) :
    CoreInvariant { s with key := some key, ctl := some { ctl with keyValid := true } } :=
  (coreInvariant_iff (ctl := { ctl with keyValid := true }) rfl).mpr
    (registersOk_of_idle hb (ok.idle_round hb) nofun ok.result_known)

/-- The accept step puts a block in flight for the key that KEY_VALID vouches for (R183, R184). -/
theorem RegistersOk.accept (hkey : ctl.keyValid = true) (mode : Mode) (block : Block) :
    CoreInvariant (accept mode block ctl s) := by
  obtain ⟨key, hk⟩ := Option.ne_none_iff_exists'.mp (ok.key_known hkey)
  exact (coreInvariant_iff (accept_ctl mode block ctl s)).mpr
    ((inFlight_accept hk mode block ctl).registersOk (Nat.zero_le 16) rfl hkey rfl)

/-- The engine takes a block in flight to its next stage (R185), or it ends it with a known result (R186). -/
theorem RegistersOk.engineStep (hb : ctl.busy = true) : CoreInvariant (engineStep ctl s) := by
  obtain ⟨key, block, flight⟩ := ok.in_flight hb
  obtain ⟨hround, e⟩ | ⟨hround, e⟩ := engineStep_cases ctl s <;> rw [e]
  · refine (coreInvariant_iff (roundStep_ctl ctl s)).mpr ((flight.roundStep hround).registersOk ?_ hb
      (ok.busy_key hb) (ok.doutValid_of_busy hb))
    exact (round_succ ctl.round hround).trans_le hround
  · refine (coreInvariant_iff (finalStep_ctl ctl s)).mpr (registersOk_of_idle rfl rfl ok.key_known ?_)
    rw [flight.dout_finalStep (ok.round_le.antisymm hround)]
    exact nofun

end

/-- Every clock edge keeps the invariant, whatever the levels on the ports. -/
theorem CoreInvariant.clockEdge {p : Pins} {s t : State} (h : CoreInvariant s)
    (edge : clockEdge p s = .next t) : CoreInvariant t := by
  obtain ⟨-, rfl⟩ | ⟨-, ctl, hs, ⟨hb, x, rfl⟩ | ⟨-, x, rfl⟩ | ⟨⟨-, -, hb⟩, rfl⟩ |
    ⟨⟨-, -, -, hkey⟩, mode, rfl⟩⟩ := clockEdge_next edge
  case inl => exact .resetStep s p.cmdValid
  case inr.inl => exact ((h ctl hs).engineStep hb).respond x
  case inr.inr.inl => exact h.respond x
  case inr.inr.inr.inl => exact ((h ctl hs).loadKey hb p.cmdData).respond .ok
  case inr.inr.inr.inr => exact ((h ctl hs).accept hkey mode p.cmdData).respond .ok

/-- Settles O48: the host's turn leaves the registers alone, and the edge keeps the invariant in each of its
cases. -/
theorem everyStepKeepsTheInvariant : Obligations.EveryStepKeepsTheInvariant := by
  intro s t h hstep
  obtain ⟨turn, -, edge⟩ := step_next hstep
  exact (h.afterTurn turn).clockEdge edge

/-- ENC and DEC with a key loaded and no block in flight are the accept step of their mode (R183, R184). -/
theorem exec_blockInstr_accept {s : State} {ctl : Control} (hs : s.ctl = some ctl)
    (hb : ctl.busy = false) (hkey : ctl.keyValid = true) (mode : Mode) (block : Block) :
    exec (blockInstr mode block) s = .next ((accept mode block ctl s).respond .ok) := by
  rw [exec_blockInstr_of_idle hs hb, if_pos hkey]

/-- The accept step of a core with a key loaded. -/
theorem accept_of_keyValid {ctl : Control} (hkey : ctl.keyValid = true) (mode : Mode) (block : Block)
    (s : State) : accept mode block ctl s =
      { s with
        l := some (leftHalf (ip64 block))
        r := some (rightHalf (ip64 block))
        c := s.key.map fun key => highHalf (pc1 key)
        d := s.key.map fun key => lowHalf (pc1 key)
        ctl := some { keyValid := true, mode := mode, round := 0, busy := true, doutValid := false } } := by
  rw [accept, hkey]

/-- Settles O13: the accept step with MODE 0. -/
theorem encAcceptsABlock : Obligations.EncAcceptsABlock := by
  intro block s ctl hs hb hkey
  have accepted := exec_blockInstr_accept hs hb hkey .encrypt block
  rwa [accept_of_keyValid hkey] at accepted

/-- Settles O14: the accept step with MODE 1. -/
theorem decAcceptsABlock : Obligations.DecAcceptsABlock := by
  intro block s ctl hs hb hkey
  have accepted := exec_blockInstr_accept hs hb hkey .decrypt block
  rwa [accept_of_keyValid hkey] at accepted

/-- Settles O59: a response changes no register, so that the step on the port is the stage itself. -/
theorem stagesFollowTheAcceptedBlock : Obligations.StagesFollowTheAcceptedBlock := by
  refine ⟨fun mode key block s ctl hs hb hkey hk => ?accept, fun p key block s ctl hr hs hb flight =>
    ⟨fun hround => ?round, fun hround => ?final⟩⟩
  case accept =>
    have stage := inFlight_accept hk mode block ctl
    rw [hkey] at stage
    exact ⟨_, _, exec_blockInstr_accept hs hb hkey mode block,
      congrArg State.ctl (accept_of_keyValid hkey mode block s), rfl, stage.congr rfl rfl rfl rfl rfl⟩
  case round =>
    refine ⟨_, _, clockEdge_busy hr hs hb, ?_, rfl, round_succ ctl.round hround, ?_⟩ <;>
      rw [engineStep_eq_ite, if_pos hround]
    · exact roundStep_ctl ctl s
    · exact (flight.roundStep hround).congr rfl rfl rfl rfl rfl
  case final =>
    have lastRound : ¬ctl.round.toNat < 16 := hround.not_lt
    refine ⟨_, clockEdge_busy hr hs hb, ?_, ?_⟩ <;> rw [engineStep_eq_ite, if_neg lastRound]
    · exact flight.dout_finalStep hround
    · exact finalStep_ctl ctl s

end Sys2Proof.Machine
end

section
/-! The response of an edge (R66, R189, R204), and the edges that have one: all but those before the first
reset (R222). -/

namespace Sys2Proof.Machine

/-- The port's response with no reset and the control registers at `ctl`, by `cmd_op` (R62, R204). -/
theorem responsePort_of_ctl {p : Pins} (hr : p.rst = false) (ctl : Control) :
    responsePort p (some ctl) = some
      (if p.cmdValid = false ∨ p.cmdOp = 0b00#2 then .ok
       else if ctl.busy then .busy
       else if p.cmdOp = 0b01#2 ∨ ctl.keyValid = true then .ok
       else .noKey) := by
  rw [responsePort, hr, Pins.word, decode_append]
  cases hv : p.cmdValid with
  | false => simp
  | true =>
    obtain op | op | op | op := opcode_cases p.cmdOp <;> simp only [op] <;>
      cases ctl.busy <;> cases ctl.keyValid <;> rfl

/-- The port drives OK or RST in a reset step, whatever the state (R204, R221). -/
theorem responsePort_reset {p : Pins} (hr : p.rst = true) (ctl : Option Control) :
    responsePort p ctl = some (if p.cmdValid then .rst else .ok) := by
  simp [responsePort, hr]

/-- The response is undefined in the steps before the first reset and in no others (R222). -/
theorem responsePort_eq_none_iff {p : Pins} {ctl : Option Control} :
    responsePort p ctl = none ↔ p.rst = false ∧ ctl = none := by
  cases hr : p.rst with
  | true => simp [responsePort_reset hr]
  | false =>
    cases ctl with
    | none => simp [responsePort, hr]
    | some ctl => simp [responsePort_of_ctl hr]

/-- The response of a command's idle effect, by `cmd_op` (R62, R188). -/
theorem idleEffect_resp (p : Pins) (s : State) (ctl : Control) :
    (idleEffect (decode p.word) s ctl).resp =
      if p.cmdOp = 0b00#2 ∨ p.cmdOp = 0b01#2 ∨ ctl.keyValid = true then .ok else .noKey := by
  rw [idleEffect_decode_word]
  split_ifs <;> simp_all

/-- With no reset and no block in flight an edge is the effect of the command on the port, if there is one
(R180). -/
theorem clockEdge_not_busy {p : Pins} {s : State} {ctl : Control} (hr : p.rst = false)
    (hs : s.ctl = some ctl) (hb : ctl.busy = false) :
    clockEdge p s =
      .next (if p.cmdValid then idleEffect (decode p.word) s ctl else s.respond .ok) := by
  cases hv : p.cmdValid with
  | true => exact (clockEdge_command hr hv s).trans (exec_of_idle hs hb _)
  | false => exact clockEdge_quiet_of_idle hr hv hs hb

/-- After the first reset every edge completes, and the step records the response that the port drives. -/
theorem clockEdge_completes {p : Pins} {s : State} (h : Booted s ∨ p.rst = true) :
    ∃ t, clockEdge p s = .next t ∧ responsePort p s.ctl = some t.resp := by
  cases hr : p.rst with
  | true => exact ⟨_, clockEdge_reset hr s, responsePort_reset hr s.ctl⟩
  | false =>
    obtain ⟨ctl, hs⟩ := Option.ne_none_iff_exists'.mp (h.resolve_right (by simp [hr]))
    rw [hs, responsePort_of_ctl hr]
    cases hb : ctl.busy with
    | true =>
      refine ⟨_, clockEdge_busy hr hs hb, ?_⟩
      rw [respond_resp]
      split_ifs <;> simp_all
    | false =>
      refine ⟨_, clockEdge_not_busy hr hs hb, ?_⟩
      cases hv : p.cmdValid with
      | true => simp [idleEffect_resp, ← ite_or]
      | false => simp

/-- The engine's step has control registers (R185, R186). -/
theorem engineStep_ctl (ctl : Control) (s : State) : (engineStep ctl s).ctl = some
    (if ctl.round.toNat < 16 then { ctl with round := ctl.round + 1 }
     else { ctl with doutValid := true, busy := false, round := 0 }) := by
  rw [engineStep_eq_ite]
  split_ifs <;> rfl

/-- No edge takes the control registers away (R222). -/
theorem booted_of_clockEdge {p : Pins} {s t : State} (h : clockEdge p s = .next t) : Booted t := by
  obtain ⟨-, rfl⟩ | ⟨-, ctl, hs, ⟨-, x, rfl⟩ | ⟨-, x, rfl⟩ | ⟨-, rfl⟩ | ⟨-, mode, rfl⟩⟩ := clockEdge_next h
  case inr.inl => simp [Booted, engineStep_ctl]
  case inr.inr.inl => simp [Booted, hs]
  all_goals exact nofun

/-- An edge that completes comes after a reset or is one. -/
theorem booted_or_rst_of_clockEdge {p : Pins} {s t : State} (h : clockEdge p s = .next t) :
    Booted s ∨ p.rst = true := by
  obtain ⟨hr, -⟩ | ⟨-, ctl, hs, -⟩ := clockEdge_next h
  · exact .inr hr
  · exact .inl (by simp [Booted, hs])

/-- The recorded response of an edge that completes is the one that the port drives (R66, R189). -/
theorem responsePort_of_clockEdge {p : Pins} {s t : State} (h : clockEdge p s = .next t) :
    responsePort p s.ctl = some t.resp := by
  obtain ⟨u, edge, response⟩ := clockEdge_completes (booted_or_rst_of_clockEdge h)
  cases h.symm.trans edge
  exact response

/-- Settles O8: an edge has a response exactly where it completes. -/
theorem responsePortMatchesTheStep : Obligations.ResponsePortMatchesTheStep := by
  refine ⟨fun p s t => responsePort_of_clockEdge, fun p s undefined => ?_, fun p s h => ?_⟩
  · obtain ⟨hr, hs⟩ := responsePort_eq_none_iff.mp undefined
    exact clockEdge_before_reset hs hr
  · obtain ⟨t, edge, -⟩ := clockEdge_completes h
    exact ⟨t, edge, booted_of_clockEdge edge⟩

/-- Settles O9: the recorded response is the port's, which goes by `rst`, `cmd_valid`, `cmd_op`, BUSY and
KEY_VALID alone. -/
theorem responseCodesAndTheirCauses : Obligations.ResponseCodesAndTheirCauses := by
  intro p s t ctl hs edge
  have response := responsePort_of_clockEdge edge
  rw [hs] at response
  cases hr : p.rst with
  | true =>
    rw [responsePort_reset hr, Option.some_inj] at response
    cases hv : p.cmdValid <;> simp [← response, hv, Resp.code]
  | false =>
    rw [responsePort_of_ctl hr, Option.some_inj] at response
    cases hv : p.cmdValid with
    | false => simp [← response, hv, Resp.code]
    | true =>
      obtain op | op | op | op := opcode_cases p.cmdOp <;> cases hb : ctl.busy <;>
        cases hk : ctl.keyValid <;> simp [← response, hv, op, hb, hk, Resp.code]

/-- Settles O10: the host's turn can be at fault only by a READ, and the edge only before the first reset. -/
theorem onlyTheTwoNamedFaults : Obligations.OnlyTheTwoNamedFaults := by
  intro s
  cases hturn : hostTurn s.showsResult s.dout s.samples s.script with
  | error f =>
    obtain ⟨rfl, reads, noResult⟩ := hostTurn_error hturn
    exact .inr (.inr ⟨by rw [step, hturn], reads, noResult⟩)
  | ok turn =>
    have edge : step s = clockEdge turn.pins (s.afterTurn turn) := by rw [step, hturn]
    rw [edge]
    by_cases h : Booted (s.afterTurn turn) ∨ turn.pins.rst = true
    · obtain ⟨t, completes, -⟩ := clockEdge_completes h
      exact .inl ⟨t, completes⟩
    · obtain ⟨unbooted, hr⟩ := not_or.mp h
      exact .inr (.inl ⟨clockEdge_before_reset (not_not.mp unbooted) (by simpa using hr), unbooted⟩)

end Sys2Proof.Machine
end

section
/-! The frame of a step with no reset, register by register (R20): what a command writes with no block in
flight (R181 to R184) and what the engine writes with one in flight (R185, R186). -/

namespace Sys2Proof.Machine

/-- Everything a command can do with no block in flight (R181 to R184, R188): nothing is written, a key is
loaded, or a block is accepted. -/
theorem idleEffect_cases (i : Instr) (s : State) (ctl : Control) :
    (∃ x, idleEffect i s ctl = s.respond x) ∨
    (i.op = 0b01#2 ∧ ∃ key, idleEffect i s ctl =
      ({ s with key := some key, ctl := some { ctl with keyValid := true } } : State).respond .ok) ∨
    ((i.op = 0b10#2 ∨ i.op = 0b11#2) ∧ ctl.keyValid = true ∧ ∃ mode block, idleEffect i s ctl =
      (accept mode block ctl s).respond .ok) := by
  cases i with
  | nop data => exact .inl ⟨.ok, rfl⟩
  | ldkey key => exact .inr (.inl ⟨rfl, key, rfl⟩)
  | enc block =>
    cases hk : ctl.keyValid
    · exact .inl ⟨.noKey, by simp [idleEffect, hk]⟩
    · exact .inr (.inr ⟨.inl rfl, rfl, .encrypt, block, by simp [idleEffect, hk]⟩)
  | dec block =>
    cases hk : ctl.keyValid
    · exact .inl ⟨.noKey, by simp [idleEffect, hk]⟩
    · exact .inr (.inr ⟨.inr rfl, rfl, .decrypt, block, by simp [idleEffect, hk]⟩)

/-- Settles O17: of the three effects only the loading of a key writes KEY, and only the accept step writes
the engine's registers. -/
theorem frameOfCommandsWhenIdle : Obligations.FrameOfCommandsWhenIdle := by
  intro i s t ctl ctl' hs hb hexec ht
  rw [exec_of_idle hs hb] at hexec
  cases hexec
  obtain ⟨x, e⟩ | ⟨op, key, e⟩ | ⟨op, -, mode, block, e⟩ := idleEffect_cases i s ctl <;> rw [e] at ht ⊢
  · obtain rfl : ctl = ctl' := by simpa [hs] using ht
    simp
  · obtain rfl : { ctl with keyValid := true } = ctl' := by simpa using ht
    simp [op]
  · obtain rfl : { ctl with mode := mode, round := 0, busy := true, doutValid := false } = ctl' := by
      simpa using ht
    obtain op | op := op <;> simp [op]

/-- Settles O18: the engine makes one of its two steps, and the command does not count. -/
theorem frameOfCommandsWhenBusy : Obligations.FrameOfCommandsWhenBusy := by
  intro i s t ctl ctl' hs hb hexec ht
  rw [exec_of_busy hs hb] at hexec
  cases hexec
  obtain ⟨hround, e⟩ | ⟨hround, e⟩ := engineStep_cases ctl s
  · rw [e] at ht ⊢
    obtain rfl : { ctl with round := ctl.round + 1 } = ctl' := by simpa using ht
    simp [hround]
  · rw [e] at ht ⊢
    obtain rfl : { ctl with doutValid := true, busy := false, round := 0 } = ctl' := by simpa using ht
    simp [hround.not_gt]

/-- Settles O19: each case of an edge with no reset, and what the named operation of that case writes. -/
theorem registersChangeOnlyByTheirWriters : Obligations.RegistersChangeOnlyByTheirWriters := by
  intro p s t ctl ctl' hr hs edge ht
  obtain ⟨hr', -⟩ | ⟨-, ctl₀, hs₀, effect⟩ := clockEdge_next edge
  · simp [hr] at hr'
  cases hs.symm.trans hs₀
  obtain ⟨hb, x, rfl⟩ | ⟨-, x, rfl⟩ | ⟨loaded, rfl⟩ | ⟨accepted, mode, rfl⟩ := effect
  · obtain ⟨hround, e⟩ | ⟨hround, e⟩ := engineStep_cases ctl s <;> rw [e] at ht ⊢
    · obtain rfl : { ctl with round := ctl.round + 1 } = ctl' := by simpa using ht
      simp [hb, hround]
    · obtain rfl : { ctl with doutValid := true, busy := false, round := 0 } = ctl' := by simpa using ht
      simp [hb, hround]
  · obtain rfl : ctl = ctl' := by simpa [hs] using ht
    simp
  · obtain rfl : { ctl with keyValid := true } = ctl' := by simpa using ht
    simp [loaded]
  · obtain rfl : { ctl with mode := mode, round := 0, busy := true, doutValid := false } = ctl' := by
      simpa using ht
    simp [accepted]

/-- Settles O53: of the cases of an edge, the engine's step needs BUSY, and the accept step an accepted
command. -/
theorem noResultWithoutAnAcceptedBlock : Obligations.NoResultWithoutAnAcceptedBlock := by
  intro p s t ctl hs hb noResult blocked edge
  obtain ⟨-, rfl⟩ | ⟨hr, ctl₀, hs₀, effect⟩ := clockEdge_next edge
  · exact ⟨_, resetStep_ctl _ s, rfl, rfl⟩
  cases hs.symm.trans hs₀
  obtain ⟨busy, -⟩ | ⟨-, x, rfl⟩ | ⟨-, rfl⟩ | ⟨accepted, -⟩ := effect
  · simp [hb] at busy
  · exact ⟨ctl, hs, hb, noResult⟩
  · exact ⟨_, rfl, hb, noResult⟩
  · simp [hr, accepted] at blocked

/-- A computation with two operands has no value exactly where one of them has none (R10). -/
@[simp] theorem map2_eq_none_iff {a b c : Nat} (f : BitVec a → BitVec b → BitVec c) (x : Reg a)
    (y : Reg b) : Reg.map2 f x y = none ↔ x = none ∨ y = none := by
  cases x <;> cases y <;> simp

/-- Settles O22: every register written is a computation over the registers that R183, R185 and R186 name. -/
theorem unknownContentsStayUnknown : Obligations.UnknownContentsStayUnknown := by
  intro ctl s
  simp only [roundStep_l, roundStep_r, roundStep_c, roundStep_d, finalStep_dout, accept_l, accept_r, accept_c,
    accept_d, map2_eq_none_iff, Option.map_eq_none_iff]
  simp

/-- Settles O23: the edge is the reset step. -/
theorem resetActsInEveryState : Obligations.ResetActsInEveryState := fun p s hr =>
  ⟨resetStep p.cmdValid s, clockEdge_reset hr s, rfl, rfl, rfl, rfl, rfl, rfl, rfl, rfl, rfl, rfl⟩

end Sys2Proof.Machine
end

section
/-! The tables (R97), the round function (R120) and the key schedule (R148, R150) on the values that the rules
name, and the published vectors of the block function. -/

namespace Sys2Proof.Machine

open Tables

/-- In each box every nibble stands four times, once in each FIPS row (R97). -/
theorem count_of_mem_sboxes : ∀ sd ∈ sboxes, ∀ v < 16, sd.count v = 4 := by
  decide +kernel

/-- Looking the entries of FP up in IP counts the bits in order (R97, R103). -/
theorem IP_L_getD_FP_L : ∀ i < 64, IP_L.getD (FP_L.getD i 64) 64 = i := by
  decide

/-- Settles O29: each table is read through once. -/
theorem tablesAreWellFormed : Obligations.TablesAreWellFormed := by
  obtain ⟨-, range, -⟩ := directIndexArraysComeFromFips
  refine ⟨⟨length_IP_L, ?_, ?_⟩, ⟨length_FP_L, ?_, ?_⟩, IP_L_getD_FP_L, ⟨length_E_L, ?_, ?_⟩,
    ⟨length_P_L, ?_, ?_⟩, ⟨length_PC1_L, ?_, ?_⟩, ⟨length_PC2_L, lt_of_mem_PC2_L, ?_⟩, fun sd hsd =>
    ⟨length_of_mem_sboxes sd hsd, range sd hsd, count_of_mem_sboxes sd hsd⟩⟩
  all_goals decide

/-- F reads its operands through `E48(R) xor K` alone (R120). -/
theorem roundF_congr {r r' : Half} {k k' : Subkey} (mixed : e48 r ^^^ k = e48 r' ^^^ k') :
    roundF r k = roundF r' k' := by
  rw [roundF, mixed, roundF]

/-- Settles O37: the value at zero is one that the model evaluates. -/
theorem roundFunctionOfComplements : Obligations.RoundFunctionOfComplements :=
  ⟨fun _ _ _ _ => roundF_congr, e48_not, roundF_not_not, by decide +kernel⟩

/-- Settles O39: the amounts of a decryption after round 0 are those of R96 in reverse, by definition, and the
rest is read off the two tables. -/
theorem rotationAmounts : Obligations.RotationAmounts := by
  refine ⟨rfl, rfl, fun r first _ => ?_, fun mode => ?_⟩
  · exact if_neg (Nat.ne_of_gt first)
  · cases mode <;> decide

/-- Settles O42: sixteen rounds of an encryption are one full turn of each half, and a decryption ends where
an encryption stood after its first round. -/
theorem finalKeyScheduleState : Obligations.FinalKeyScheduleState := by
  refine fun key => ⟨?encrypt, keyState_decrypt_eq_encrypt key (r := 15) le_rfl⟩
  rw [keyState_eq_halfState, halfState_encrypt_sixteen, halfState_encrypt_sixteen,
    highHalf_append_lowHalf]

/-- Settles O46: eight words that the model evaluates. -/
theorem knownAnswerVectors : Obligations.KnownAnswerVectors := by
  refine ⟨?_, ?_, ?_, ?_, ?_, ?_, ?_, ?_⟩ <;> decide +kernel

end Sys2Proof.Machine
end

section
/-! The assembler (R68): what a line expands to, the digits of an operand, and what counts of a line's
text. -/

namespace Sys2Proof.Machine

/-- A command line is one step that presents the command's opcode and operand (R61, R68). -/
theorem lineActions_command (i : Instr) : lineActions (.command i) =
    [.drive { rst := false, cmdValid := true, cmdOp := i.op, cmdData := i.data }] := by
  rw [lineActions, present_encode]

/-- Every step of an IDLE line is quiet (R68). -/
theorem eq_quiet_of_mem_idle {n : Nat} {a : HostAct} (h : a ∈ lineActions (.idle n)) :
    a = .drive Pins.quiet :=
  List.eq_of_mem_replicate h

/-- An operand that can be read makes the line its command (R68). -/
theorem parseCommand_of_operand {operand : List Char} {v : BitVec 64}
    (h : parseOperand operand = .ok v) (command : BitVec 64 → Instr) :
    parseCommand command [operand] = .ok (.command (command v)) := by
  rw [parseCommand, h, Except.map]

/-- More than 16 digits are refused, whatever they are (R68). -/
theorem parseOperand_too_long {digits : List Char} (h : 16 < digits.length) :
    parseOperand ('0' :: 'x' :: digits) = .error .operandTooLong := by
  rw [parseOperand, if_neg (Nat.ne_zero_of_lt h), if_pos h]

/-- Settles O4: the expansions and the refusals are the equations of the assembler's functions. -/
theorem assemblerExpandsAndRefuses : Obligations.AssemblerExpandsAndRefuses := by
  refine ⟨⟨lineActions_command, fun n => ⟨List.length_replicate, fun a ha =>
      ⟨Pins.quiet, eq_quiet_of_mem_idle ha, rfl, rfl⟩⟩, ⟨Pins.reset, rfl, rfl, rfl⟩, rfl, rfl, rfl,
      fun _ _ => List.flatMap_cons⟩,
    ⟨rfl, fun operand v h => ?operands, fun count n h => ?count, rfl, rfl, rfl⟩,
    ⟨fun _ => parseOperand_too_long, fun _ _ => rfl, rfl, rfl, rfl⟩⟩
  case operands =>
    exact ⟨parseCommand_of_operand h .ldkey, parseCommand_of_operand h .enc,
      parseCommand_of_operand h .dec⟩
  case count => exact congrArg (Except.map Line.idle) h

/-- A code has no value in a run of digits exactly where it stands before the run or after it. -/
theorem valueInRun_eq_none_iff {code count value : Nat} {first : Char} :
    valueInRun code (first, count, value) = none ↔ code < first.toNat ∨ first.toNat + count ≤ code := by
  simp only [valueInRun, ite_eq_right_iff, reduceCtorEq, imp_false]
  omega

/-- The three runs of hexadecimal digits, tried in turn. -/
theorem hexDigit_eq_or (c : Char) : hexDigit c = (valueInRun c.toNat ('0', 10, 0)).or
    ((valueInRun c.toNat ('A', 6, 10)).or (valueInRun c.toNat ('a', 6, 10))) := by
  rw [hexDigit, List.findSome?, List.findSome?, List.findSome?, List.findSome?, decimalRun]
  cases valueInRun c.toNat ('0', 10, 0) with
  | some _ => rfl
  | none =>
    cases valueInRun c.toNat ('A', 6, 10) with
    | some _ => rfl
    | none => cases valueInRun c.toNat ('a', 6, 10) <;> rfl

/-- The hexadecimal digits by their codes: the ten digits and six letters in either case (R68, log entry 11).
No code is in two of the three runs. -/
theorem hexDigit_eq_some_iff (c : Char) (v : Nat) : hexDigit c = some v ↔
    (v < 10 ∧ c.toNat = '0'.toNat + v) ∨
    (10 ≤ v ∧ v < 16 ∧ (c.toNat = 'A'.toNat + (v - 10) ∨ c.toNat = 'a'.toNat + (v - 10))) := by
  have codes : '0'.toNat = 48 ∧ 'A'.toNat = 65 ∧ 'a'.toNat = 97 := by decide
  obtain ⟨zero, upper, lower⟩ := codes
  rw [hexDigit_eq_or, Option.or_eq_some_iff, Option.or_eq_some_iff]
  simp only [valueInRun_eq_some, valueInRun_eq_none_iff, zero, upper, lower]
  omega

/-- A hexadecimal digit is less than 16. -/
theorem lt_of_hexDigit {c : Char} {v : Nat} (h : hexDigit c = some v) : v < 16 := by
  obtain ⟨hv, -⟩ | ⟨-, hv, -⟩ := (hexDigit_eq_some_iff c v).mp h <;> omega

/-- The values of hexadecimal digits are digits in base 16. -/
theorem values_lt_of_hexDigit {digits : List Char} {values : List Nat}
    (h : digits.map hexDigit = values.map some) : ∀ v ∈ values, v < 16 := by
  intro v hv
  have written : some v ∈ digits.map hexDigit := h ▸ List.mem_map_of_mem hv
  obtain ⟨c, -, hc⟩ := List.mem_map.mp written
  exact lt_of_hexDigit hc

/-- Up to 16 hexadecimal digits write a number of 64 bits (R68). -/
theorem ofDigits_hex_lt {digits : List Char} {values : List Nat}
    (h : digits.map hexDigit = values.map some) (fits : digits.length ≤ 16) :
    Nat.ofDigits 16 values.reverse < 2 ^ 64 := by
  have sameLength : values.length = digits.length := by simpa using (congrArg List.length h).symm
  calc Nat.ofDigits 16 values.reverse
      < 16 ^ values.reverse.length :=
        Nat.ofDigits_lt_base_pow_length (by decide) fun v hv =>
          values_lt_of_hexDigit h v (List.mem_reverse.mp hv)
    _ ≤ 16 ^ 16 := Nat.pow_le_pow_right (by decide) (by rw [List.length_reverse]; omega)
    _ = 2 ^ 64 := by decide

/-- An operand of 1 to 16 hexadecimal digits is the number that they write (R68). -/
theorem parseOperand_of_values {digits : List Char} {values : List Nat}
    (h : digits.map hexDigit = values.map some) (nonempty : 1 ≤ digits.length)
    (fits : digits.length ≤ 16) : parseOperand ('0' :: 'x' :: digits) =
      .ok (BitVec.ofNat 64 (Nat.ofDigits 16 values.reverse)) := by
  have written : digitsValue 16 hexDigit 0 digits = some (Nat.ofDigits 16 values.reverse) := by
    rw [digitsValue_of_values 16 hexDigit 0 digits values h, Nat.zero_mul, Nat.zero_add]
  rw [parseOperand, if_neg (Nat.ne_of_gt nonempty), if_neg fits.not_gt, written]

/-- Nothing else is an operand (R68). -/
theorem digits_of_parseOperand {operand : List Char} {v : BitVec 64} (h : parseOperand operand = .ok v) :
    ∃ (digits : List Char) (values : List Nat), operand = '0' :: 'x' :: digits ∧
      digits.map hexDigit = values.map some ∧ 1 ≤ digits.length ∧ digits.length ≤ 16 := by
  unfold parseOperand at h
  split at h
  next digits =>
    split_ifs at h with empty long
    split at h
    next => cases h
    next n written =>
      obtain ⟨values, hvalues⟩ := values_of_digitsValue written
      exact ⟨digits, values, rfl, hvalues, Nat.one_le_iff_ne_zero.mpr empty, Nat.le_of_not_lt long⟩
  next => cases h

/-- Settles O57: the digits are three runs of codes, and 16 of them write no more than 64 bits. -/
theorem operandDigitsWriteTheValue : Obligations.OperandDigitsWriteTheValue := by
  refine ⟨hexDigit_eq_some_iff, fun digits values h nonempty fits => ?_, fun _ _ => digits_of_parseOperand⟩
  refine ⟨_, parseOperand_of_values h nonempty fits, ?_⟩
  rw [BitVec.toNat_ofNat, Nat.mod_eq_of_lt (ofDigits_hex_lt h fits)]

/-- What is left of a text without its comment is the same for the text with any comment after it. -/
theorem takeWhile_append_comment (text comment : List Char) :
    (text ++ ';' :: comment).takeWhile (· != ';') = text.takeWhile (· != ';') := by
  induction text with
  | nil => rfl
  | cons c cs ih => simp only [List.cons_append, List.takeWhile_cons, ih]

/-- A text without a semicolon has no comment. -/
theorem takeWhile_no_comment {text : List Char} (h : ';' ∉ text) : text.takeWhile (· != ';') = text := by
  rw [List.takeWhile_eq_self_iff]
  intro c hc
  have : c ≠ ';' := fun e => h (e ▸ hc)
  simpa using this

/-- The line of a text without a comment whose words are `name` and `operands` (R68). -/
theorem parseLine_of_words {text name : List Char} {operands : List (List Char)} (h : ';' ∉ text)
    (words : splitWords [] text = name :: operands) :
    parseLine text = (parseNamed (name.map Char.toUpper) operands).map some := by
  rw [parseLine, takeWhile_no_comment h, words]

/-- Settles O58: a line is read off the text before the comment, and off its name in capitals. -/
theorem commentsAndLetterCaseDoNotCount : Obligations.CommentsAndLetterCaseDoNotCount := by
  refine ⟨fun text comment => ?comment, fun text text' name name' operands h h' words words' same => ?name⟩
  case comment => rw [parseLine, takeWhile_append_comment, parseLine]
  case name => rw [parseLine_of_words h words, parseLine_of_words h' words', same]

end Sys2Proof.Machine
end

section
/-! The host's turn before an edge (R68): WAIT and READ with and without a valid result (R226). -/

namespace Sys2Proof.Machine

/-- Port `dout_valid` after the first reset (R29). -/
theorem showsResult_of_ctl {s : State} {ctl : Control} (hs : s.ctl = some ctl) :
    s.showsResult = ctl.doutValid := by
  rw [State.showsResult, hs]

/-- A READ with no valid result is a fault of the run (R226). -/
theorem step_read_invalid {s : State} {rest : List HostAct} (hv : s.showsResult = false)
    (h : s.script = .read :: rest) : step s = .fault .readWhileInvalid := by
  simp [step, h, hostTurn, hv]

/-- A READ of a valid result takes no step (R68). -/
theorem step_read_valid {s : State} {rest : List HostAct} (hv : s.showsResult = true)
    (h : s.script = .read :: rest) :
    step s = step { s with script := rest, samples := s.samples ++ [s.dout] } := by
  have shown : ({ s with script := rest, samples := s.samples ++ [s.dout] } : State).showsResult = true := hv
  simp [step, h, hostTurn, hv, shown, State.afterTurn]

/-- A WAIT with no valid result is a step with no command, after which the host waits on (R68). -/
theorem step_wait_invalid {s : State} {rest : List HostAct} (hv : s.showsResult = false)
    (h : s.script = .wait :: rest) : step s = clockEdge Pins.quiet s := by
  have unchanged : s.afterTurn ⟨Pins.quiet, .wait :: rest, s.samples⟩ = s := by rw [← h]; rfl
  simp [step, h, hostTurn, hv, unchanged]

/-- A WAIT with a valid result takes no step (R68). -/
theorem step_wait_valid {s : State} {rest : List HostAct} (hv : s.showsResult = true)
    (h : s.script = .wait :: rest) : step s = step { s with script := rest } := by
  have shown : ({ s with script := rest } : State).showsResult = true := hv
  simp [step, h, hostTurn, hv, shown, State.afterTurn]

/-- Settles O26: the clauses are the READ of an invalid and that of a valid result, and before the first reset
none is valid. -/
theorem readSamplesOnlyAValidResult : Obligations.ReadSamplesOnlyAValidResult := by
  refine ⟨fun s ctl rest hs h => ⟨fun invalid => ?_, fun valid => ?_⟩, fun s rest hs h => ?_⟩
  · exact step_read_invalid ((showsResult_of_ctl hs).trans invalid) h
  · exact step_read_valid ((showsResult_of_ctl hs).trans valid) h
  · exact step_read_invalid (by rw [State.showsResult, hs]) h

/-- Settles O27: the clauses are the WAIT for an invalid and for a valid result. -/
theorem waitHoldsTheHost : Obligations.WaitHoldsTheHost := fun _ _ _ hs h =>
  ⟨fun invalid => step_wait_invalid ((showsResult_of_ctl hs).trans invalid) h,
    fun valid => step_wait_valid ((showsResult_of_ctl hs).trans valid) h⟩

end Sys2Proof.Machine
end

section
/-! Runs of a block in flight (R191, R224, R225). Whatever the host does without a reset, each step is the
engine's: the rounds that are left, and then the final step. -/

namespace Sys2Proof.Machine

/-- With port `dout_valid` at `v`, the first script begins with `n` steps that have `rst = 0`, and the second
one is left after them. A step is one of levels that the host drives, or one in which a WAIT holds it
(R68). -/
inductive WithoutReset (v : Bool) : Nat → List HostAct → List HostAct → Prop
  | done (rest : List HostAct) : WithoutReset v 0 rest rest
  | drive {n : Nat} {script rest : List HostAct} (p : Pins) (hr : p.rst = false)
      (h : WithoutReset v n script rest) : WithoutReset v (n + 1) (.drive p :: script) rest
  | wait {n : Nat} {script rest : List HostAct} (hv : v = false)
      (h : WithoutReset v n (.wait :: script) rest) : WithoutReset v (n + 1) (.wait :: script) rest

/-- Levels without a reset. -/
theorem withoutReset_of_ports (v : Bool) {ports : List Pins} (h : NoReset ports) (rest : List HostAct) :
    WithoutReset v ports.length (ports.map .drive ++ rest) rest := by
  induction ports with
  | nil => exact .done rest
  | cons p ports ih =>
    obtain ⟨hr, hports⟩ := List.forall_mem_cons.mp h
    exact .drive p hr (ih hports)

/-- A WAIT while no result is valid. -/
theorem withoutReset_of_wait (n : Nat) (rest : List HostAct) :
    WithoutReset false n (.wait :: rest) (.wait :: rest) := by
  induction n with
  | zero => exact .done _
  | succ n ih => exact .wait rfl ih

/-- After no steps the host's script is as it was. -/
theorem WithoutReset.eq_of_zero {v : Bool} {script rest : List HostAct} (h : WithoutReset v 0 script rest) :
    script = rest := by
  cases h
  rfl

/-- One step of a block in flight: the engine's step and a response, the host's script going on (R180). -/
theorem step_busy {s : State} {ctl : Control} {n : Nat} {rest : List HostAct} (hs : s.ctl = some ctl)
    (hb : ctl.busy = true) (h : WithoutReset ctl.doutValid (n + 1) s.script rest) :
    ∃ script x, WithoutReset ctl.doutValid n script rest ∧
      step s = .next (({ engineStep ctl s with script := script } : State).respond x) := by
  generalize hscript : s.script = script₀ at h
  cases h with
  | @drive _ script _ p hr h => exact ⟨script, _, h, step_drive_busy hscript hr hs hb⟩
  | @wait _ script _ hv h =>
    refine ⟨_, .ok, h, (step_wait_busy hs hb hv hscript).trans ?_⟩
    rw [← hscript, ← engineStep_script ctl s]

/-- The control registers after `n` rounds more (R26, R185). -/
def Control.advance (ctl : Control) (n : Nat) : Control :=
  { ctl with round := ctl.round + BitVec.ofNat 5 n }

@[simp] theorem advance_zero (ctl : Control) : ctl.advance 0 = ctl := by
  simp [Control.advance]

theorem advance_succ (ctl : Control) (n : Nat) :
    ({ ctl with round := ctl.round + 1 } : Control).advance n = ctl.advance (n + 1) := by
  have round : ctl.round + 1 + BitVec.ofNat 5 n = ctl.round + BitVec.ofNat 5 (n + 1) := by
    rw [BitVec.add_assoc, BitVec.add_comm 1, BitVec.ofNat_add]
    rfl
  simp only [Control.advance, round]

/-- ROUND counts the rounds up to 16 without wrapping. -/
theorem toNat_round_advance {ctl : Control} {n : Nat} (h : ctl.round.toNat + n ≤ 16) :
    (ctl.advance n).round.toNat = ctl.round.toNat + n := by
  simp only [Control.advance, BitVec.toNat_add, BitVec.toNat_ofNat]
  omega

/-- What `n` rounds do to a block in flight whose control registers are `ctl`, from `s` to `t`: the block goes
through `n` stages of rule R167, and nothing else of the core changes. -/
structure RoundsDone (n : Nat) (ctl : Control) (s t : State) : Prop where
  ctl_eq : t.ctl = some (ctl.advance n)
  key_eq : t.key = s.key
  samples_eq : t.samples = s.samples
  stage : ∀ key block, InFlight ctl key block s → InFlight (ctl.advance n) key block t

/-- A run of rounds, with `m` steps of the host without a reset left after it. -/
theorem run_rounds {n m : Nat} {s : State} {ctl : Control} {rest : List HostAct}
    (hs : s.ctl = some ctl) (hb : ctl.busy = true) (fits : ctl.round.toNat + n ≤ 16)
    (h : WithoutReset ctl.doutValid (n + m) s.script rest) :
    ∃ t : State, Host.Core.run Sys2Proof.core n s = .next t ∧ WithoutReset ctl.doutValid m t.script rest ∧
      RoundsDone n ctl s t := by
  induction n generalizing s ctl with
  | zero =>
    rw [Nat.zero_add] at h
    exact ⟨s, run_zero s, h, by rwa [advance_zero], rfl, rfl, fun key block flight => by rwa [advance_zero]⟩
  | succ n ih =>
    have below : ctl.round.toNat < 16 := by omega
    rw [Nat.add_right_comm] at h
    obtain ⟨script, x, h, hstep⟩ := step_busy hs hb h
    rw [engineStep_eq_ite, if_pos below] at hstep
    have fits' : (ctl.round + 1).toNat + n ≤ 16 := by rw [round_succ _ below]; omega
    obtain ⟨t, hrun, left, done⟩ := ih (s := ({ roundStep ctl s with script := script } : State).respond x)
      (roundStep_ctl ctl s) hb fits' h
    refine ⟨t, (run_succ n hstep).trans hrun, left, ?_, done.key_eq, done.samples_eq,
      fun key block flight => ?_⟩
    · rw [done.ctl_eq, advance_succ]
    · rw [← advance_succ]
      exact done.stage key block ((flight.roundStep below).congr rfl rfl rfl rfl rfl)

/-- What the rounds that are left and the final step do to a block in flight (R186, R191). -/
structure BlockDone (ctl : Control) (s t : State) : Prop where
  ctl_eq : t.ctl = some { ctl with doutValid := true, busy := false, round := 0 }
  key_eq : t.key = s.key
  samples_eq : t.samples = s.samples
  result : ∀ key block, InFlight ctl key block s → t.dout = some (des ctl.mode key block)

/-- A run to the end of the block: `n` rounds up to ROUND = 16, and the final step. -/
theorem run_block {n : Nat} {s : State} {ctl : Control} {rest : List HostAct} (hs : s.ctl = some ctl)
    (hb : ctl.busy = true) (last : ctl.round.toNat + n = 16)
    (h : WithoutReset ctl.doutValid (n + 1) s.script rest) :
    ∃ t : State, Host.Core.run Sys2Proof.core (n + 1) s = .next t ∧ t.script = rest ∧ BlockDone ctl s t := by
  obtain ⟨u, hrun, left, done⟩ := run_rounds hs hb last.le h
  have sixteen : (ctl.advance n).round.toNat = 16 := (toNat_round_advance last.le).trans last
  obtain ⟨script, x, left, hstep⟩ := step_busy done.ctl_eq hb left
  rw [engineStep_eq_ite, if_neg sixteen.not_lt] at hstep
  exact ⟨_, (run_add n 1 hrun).trans (run_succ 0 hstep), left.eq_of_zero, rfl, done.key_eq,
    done.samples_eq, fun key block flight => (done.stage key block flight).dout_finalStep sixteen⟩

/-- Settles O51: the rounds that are left and the final step are 17 - ROUND steps. -/
theorem blockInFlightEndsWithinSeventeenSteps : Obligations.BlockInFlightEndsWithinSeventeenSteps := by
  intro s ctl ports rest hs hb hround noReset hlen hscript
  obtain ⟨n, hn⟩ := Nat.exists_eq_add_of_le hround
  have steps : 17 - ctl.round.toNat = n + 1 := by omega
  have steady := withoutReset_of_ports ctl.doutValid noReset rest
  rw [← hscript, hlen, steps] at steady
  obtain ⟨t, hrun, -, done⟩ := run_block hs hb hn.symm steady
  rw [steps]
  exact ⟨t, _, hrun, done.ctl_eq, rfl, rfl⟩

/-- The control registers right after an accept step (R183, R184). -/
def Control.accepted (mode : Mode) : Control :=
  { keyValid := true, mode := mode, round := 0, busy := true, doutValid := false }

/-- The step that accepts a block: the block is in flight for the key loaded, at stage 0 of rule R167. -/
theorem step_accept {s : State} {ctl : Control} {key : Key} {mode : Mode} {block : Block}
    {rest : List HostAct} (hs : s.ctl = some ctl) (hb : ctl.busy = false) (hkey : ctl.keyValid = true)
    (hk : s.key = some key)
    (hscript : s.script = HostAct.present (encode (blockInstr mode block)) :: rest) :
    ∃ t, step s = .next t ∧ t.ctl = some (.accepted mode) ∧ t.key = some key ∧ t.script = rest ∧
      t.samples = s.samples ∧ InFlight (.accepted mode) key block t := by
  have stage := inFlight_accept (s := { s with script := rest }) hk mode block ctl
  rw [hkey] at stage
  refine ⟨(accept mode block ctl { s with script := rest }).respond .ok, ?_, ?_, hk, rfl, rfl,
    stage.congr rfl rfl rfl rfl rfl⟩
  · rw [step_present hscript, decode_encode]
    exact exec_blockInstr_accept (s := { s with script := rest }) hs hb hkey mode block
  · exact congrArg State.ctl (accept_of_keyValid hkey mode block { s with script := rest })

/-- A block accepted in one step is complete 17 steps later (R191, R224). -/
theorem run_accepted {s : State} {ctl : Control} {key : Key} {mode : Mode} {block : Block}
    {script rest : List HostAct} (hs : s.ctl = some ctl) (hb : ctl.busy = false)
    (hkey : ctl.keyValid = true) (hk : s.key = some key)
    (hscript : s.script = HostAct.present (encode (blockInstr mode block)) :: script)
    (steady : WithoutReset false 17 script rest) :
    ∃ t : State, Host.Core.run Sys2Proof.core 18 s = .next t ∧ t.dout = some (des mode key block) ∧
      t.ctl = some { keyValid := true, mode := mode, round := 0, busy := false, doutValid := true } ∧
      t.key = some key ∧ t.script = rest ∧ t.samples = s.samples := by
  obtain ⟨u, hstep, hctl, hkey', hrest, hsamples, flight⟩ := step_accept hs hb hkey hk hscript
  obtain ⟨t, hrun, hscript', done⟩ := run_block (n := 16) hctl rfl rfl (hrest ▸ steady)
  exact ⟨t, (run_succ 17 hstep).trans hrun, done.result key block flight, done.ctl_eq,
    done.key_eq.trans hkey', hscript', done.samples_eq.trans hsamples⟩

/-- Settles O49: the port levels are 17 steps without a reset after the accept step. -/
theorem acceptedBlockCompletesInEighteenSteps : Obligations.AcceptedBlockCompletesInEighteenSteps := by
  intro s ctl mode key block ports rest hs hb hkey hk noReset hlen hscript
  have steady := withoutReset_of_ports false noReset rest
  rw [hlen] at steady
  exact ⟨rfl, run_accepted hs hb hkey hk hscript steady⟩

/-- Settles O50: after at most 16 steps the block is still in flight, and after 17 it is complete with the key
still loaded. -/
theorem busyInterlock : Obligations.BusyInterlock := by
  intro s ctl mode key block ports p rest hs hb hkey hk noReset hlen hr hv notNop hscript
  have steady := withoutReset_of_ports false noReset (.drive p :: rest)
  by_cases inFlight : ports.length ≤ 16
  · obtain ⟨u, hstep, hctl, hkey', hrest, -, -⟩ := step_accept hs hb hkey hk hscript
    have fits : (Control.accepted mode).round.toNat + ports.length ≤ 16 := by
      simpa [Control.accepted] using inFlight
    obtain ⟨v, hrun, left, done⟩ := run_rounds (m := 0) hctl rfl fits (hrest ▸ steady)
    have refused := step_drive_busy left.eq_of_zero hr done.ctl_eq rfl
    refine ⟨_, (run_succ _ hstep).trans ((run_add _ 1 hrun).trans (run_succ 0 refused)),
      fun _ => ⟨if_pos ⟨hv, notNop⟩, ?_⟩, fun full => by omega⟩
    exact (engineStep_key _ v).trans (done.key_eq.trans hkey')
  · obtain full : ports.length = 17 := by omega
    rw [full] at steady ⊢
    obtain ⟨t, hrun, -, hctl, -, hrest, -⟩ := run_accepted hs hb hkey hk hscript steady
    have taken := step_drive_idle hrest hr hv hctl rfl
    refine ⟨_, (run_add 18 1 hrun).trans (run_succ 0 taken), fun h => by omega, fun _ => ?_⟩
    rw [idleEffect_resp]
    simp

/-- A step with no reset and neither ENC nor DEC leaves a completed result where it is (R28). -/
theorem step_keeps_result {s : State} {ctl : Control} {p : Pins} {rest : List HostAct}
    (hs : s.ctl = some ctl) (hb : ctl.busy = false) (hr : p.rst = false)
    (other : p.cmdValid = true → p.cmdOp = 0b00#2 ∨ p.cmdOp = 0b01#2)
    (hscript : s.script = .drive p :: rest) :
    ∃ (t : State) (ctl' : Control), step s = .next t ∧ t.script = rest ∧ t.ctl = some ctl' ∧
      t.dout = s.dout ∧ ctl'.doutValid = ctl.doutValid ∧ ctl'.busy = false := by
  cases hv : p.cmdValid with
  | false => exact ⟨_, ctl, step_drive_quiet hscript hr hv hs hb, rfl, hs, rfl, rfl, hb⟩
  | true =>
    have edge := step_drive_idle hscript hr hv hs hb
    rw [idleEffect_decode_word] at edge
    obtain op | op := other hv <;> rw [op] at edge
    · exact ⟨_, ctl, edge, rfl, hs, rfl, rfl, hb⟩
    · exact ⟨_, { ctl with keyValid := true }, edge, rfl, rfl, rfl, rfl, hb⟩

/-- Settles O52, by induction on the port levels. -/
theorem resultStaysUntilTheNextBlock : Obligations.ResultStaysUntilTheNextBlock := by
  intro s ctl ports rest hs hb valid noReset others hscript
  induction ports generalizing s ctl with
  | nil => exact ⟨s, ctl, run_zero s, hs, rfl, valid, hb⟩
  | cons p ports ih =>
    obtain ⟨hr, noReset⟩ := List.forall_mem_cons.mp noReset
    obtain ⟨other, others⟩ := List.forall_mem_cons.mp others
    obtain ⟨u, ctl₁, hstep, hrest, hs₁, hdout, valid₁, hb₁⟩ := step_keeps_result hs hb hr other hscript
    obtain ⟨t, ctl', hrun, ht, hdout', valid', hb'⟩ :=
      ih u ctl₁ hs₁ hb₁ (valid₁.trans valid) noReset others hrest
    exact ⟨t, ctl', (run_succ _ hstep).trans hrun, ht, hdout'.trans hdout, valid', hb'⟩

/-- A program that ends in a WAIT and a READ of a valid result samples it after its last step (R191). -/
theorem programEnd_wait_read {s : State} (shown : s.showsResult = true)
    (hscript : s.script = [.wait, .read]) :
    s.programEnd = .ok (some { s with script := [], samples := s.samples ++ [s.dout] }) := by
  simp [State.programEnd, hscript, shown, lastSamples, Except.map]

/-- So does a further step, in which the host presents nothing. -/
theorem step_wait_read_idle {s : State} {ctl : Control} (hs : s.ctl = some ctl)
    (hb : ctl.busy = false) (valid : ctl.doutValid = true) (hscript : s.script = [.wait, .read]) :
    step s = .next
      (({ s with script := [], samples := s.samples ++ [s.dout] } : State).respond .ok) := by
  have shown : s.showsResult = true := (showsResult_of_ctl hs).trans valid
  rw [step_wait_valid shown hscript, step_read_valid (s := { s with script := [.read] }) shown rfl,
    step_no_script rfl]
  exact clockEdge_quiet_of_idle rfl rfl hs hb

/-- The boot sequence up to the key: a reset step and LDKEY (R223). -/
theorem run_reset_ldkey {s : State} {key : Key} {rest : List HostAct}
    (hscript : s.script = .drive Pins.reset :: HostAct.present (encode (.ldkey key)) :: rest) :
    ∃ t : State, Host.Core.run Sys2Proof.core 2 s = .next t ∧
      t.ctl = some { Control.reset with keyValid := true } ∧ t.key = some key ∧ t.script = rest ∧
      t.samples = s.samples := by
  have first := step_drive hscript
  rw [clockEdge_reset rfl] at first
  have second := step_drive_idle (s := resetStep false
    { s with script := HostAct.present (encode (.ldkey key)) :: rest }) rfl rfl rfl rfl rfl
  rw [word_present, decode_encode] at second
  exact ⟨_, (run_succ 1 first).trans (run_succ 0 second), rfl, rfl, rfl, rfl⟩

/-- Settles O56: two steps bring the key, eighteen more the result, and what is left of the script samples
it. -/
theorem bootSequenceYieldsTheResult : Obligations.BootSequenceYieldsTheResult := by
  intro s mode key block hscript
  obtain ⟨u, hboot, hctl, hk, hrest, hsamples⟩ := run_reset_ldkey hscript
  obtain ⟨t, hblock, hdout, hctl', -, hleft, hsamples'⟩ :=
    run_accepted hctl rfl rfl hk hrest (withoutReset_of_wait 17 [.read])
  have hrun : Host.Core.run Sys2Proof.core 20 s = .next t := (run_add 2 18 hboot).trans hblock
  have shown : t.showsResult = true := showsResult_of_ctl hctl'
  have sampled : t.samples ++ [t.dout] = s.samples ++ [some (des mode key block)] := by
    rw [hsamples', hsamples, hdout]
  refine ⟨⟨t, hrun, hleft, hdout, shown, hsamples'.trans hsamples, ?_⟩, ?_⟩
  · rw [programEnd_wait_read shown hleft, sampled]
  · exact ⟨_, (run_add 20 1 hrun).trans (run_succ 0 (step_wait_read_idle hctl' rfl rfl hleft)), rfl,
      sampled⟩

end Sys2Proof.Machine
end

section
/-! Two states that the core treats alike (R104, R166, R220). A relation that the host's turn and each named
operation of an edge keep is kept by the step, which then completes or is at fault on both sides. -/

namespace Sys2Proof.Machine

/-- What a relation on states has to do for every step to keep it: related states show the host the same, and
each operation that the step is made of (R180) takes related states to related ones. -/
structure StepCongruence (Alike : State → State → Prop) : Prop where
  ctl_eq : ∀ {s t}, Alike s t → s.ctl = t.ctl
  turn_eq : ∀ {s t}, Alike s t →
    hostTurn s.showsResult s.dout s.samples s.script = hostTurn t.showsResult t.dout t.samples t.script
  afterTurn : ∀ {s t}, Alike s t → ∀ turn, Alike (s.afterTurn turn) (t.afterTurn turn)
  respond : ∀ {s t}, Alike s t → ∀ x, Alike (s.respond x) (t.respond x)
  resetStep : ∀ {s t}, Alike s t → ∀ v, Alike (resetStep v s) (resetStep v t)
  loadKey : ∀ {s t ctl}, Alike s t → s.ctl = some ctl → ∀ key,
    Alike { s with key := some key, ctl := some { ctl with keyValid := true } }
      { t with key := some key, ctl := some { ctl with keyValid := true } }
  accept : ∀ {s t ctl}, Alike s t → s.ctl = some ctl → ctl.keyValid = true → ∀ mode block,
    Alike (accept mode block ctl s) (accept mode block ctl t)
  roundStep : ∀ {s t ctl}, Alike s t → s.ctl = some ctl → ctl.busy = true →
    Alike (roundStep ctl s) (roundStep ctl t)
  finalStep : ∀ {s t ctl}, Alike s t → s.ctl = some ctl → ctl.busy = true →
    Alike (finalStep ctl s) (finalStep ctl t)

section
variable {Alike : State → State → Prop} (congr : StepCongruence Alike) {s t : State} (h : Alike s t)
include congr h

theorem StepCongruence.alike_engineStep {ctl : Control} (hs : s.ctl = some ctl) (hb : ctl.busy = true) :
    Alike (engineStep ctl s) (engineStep ctl t) := by
  rw [engineStep_eq_ite, engineStep_eq_ite]
  split_ifs
  · exact congr.roundStep h hs hb
  · exact congr.finalStep h hs hb

theorem StepCongruence.alike_idleEffect {ctl : Control} (hs : s.ctl = some ctl) (p : Pins) :
    Alike (idleEffect (decode p.word) s ctl) (idleEffect (decode p.word) t ctl) := by
  rw [idleEffect_decode_word, idleEffect_decode_word]
  split_ifs with nop ldkey noKey
  · exact congr.respond h .ok
  · exact congr.respond (congr.loadKey h hs _) .ok
  · exact congr.respond h .noKey
  · exact congr.respond (congr.accept h hs (by simpa using noKey) _ _) .ok
  · exact congr.respond (congr.accept h hs (by simpa using noKey) _ _) .ok

/-- An edge from related states completes on both sides, with related next states, or is the same fault. -/
theorem StepCongruence.alike_clockEdge (p : Pins) :
    (∃ s' t', clockEdge p s = .next s' ∧ clockEdge p t = .next t' ∧ Alike s' t') ∨
    (∃ f, clockEdge p s = .fault f ∧ clockEdge p t = .fault f) := by
  cases hr : p.rst with
  | true => exact .inl ⟨_, _, clockEdge_reset hr s, clockEdge_reset hr t, congr.resetStep h _⟩
  | false =>
    have sameCtl := congr.ctl_eq h
    cases hs : s.ctl with
    | none =>
      exact .inr ⟨_, clockEdge_before_reset hs hr, clockEdge_before_reset (sameCtl.symm.trans hs) hr⟩
    | some ctl =>
      have ht := sameCtl.symm.trans hs
      cases hb : ctl.busy with
      | true =>
        exact .inl ⟨_, _, clockEdge_busy hr hs hb, clockEdge_busy hr ht hb,
          congr.respond (congr.alike_engineStep h hs hb) _⟩
      | false =>
        refine .inl ⟨_, _, clockEdge_not_busy hr hs hb, clockEdge_not_busy hr ht hb, ?_⟩
        split_ifs
        · exact congr.alike_idleEffect h hs p
        · exact congr.respond h .ok

/-- So does a step, whose host turn is the same on both sides. -/
theorem StepCongruence.alike_step :
    (∃ s' t', step s = .next s' ∧ step t = .next t' ∧ Alike s' t') ∨
    (∃ f, step s = .fault f ∧ step t = .fault f) := by
  rw [step, step, ← congr.turn_eq h]
  cases hostTurn s.showsResult s.dout s.samples s.script with
  | error f => exact .inr ⟨f, rfl, rfl⟩
  | ok turn => exact congr.alike_clockEdge (congr.afterTurn h turn) turn.pins

/-- So each outcome of a step on the one side has its counterpart on the other. -/
theorem StepCongruence.next_and_fault :
    (∀ s', step s = .next s' → ∃ t', step t = .next t' ∧ Alike s' t') ∧
    (∀ f, step s = .fault f → step t = .fault f) := by
  obtain ⟨s', t', hs, ht, after⟩ | ⟨f, hs, ht⟩ := congr.alike_step h
  · refine ⟨fun u hu => ?_, fun g hg => ?_⟩
    · cases hs.symm.trans hu
      exact ⟨t', ht, after⟩
    · cases hs.symm.trans hg
  · refine ⟨fun u hu => ?_, fun g hg => ?_⟩
    · cases hs.symm.trans hu
    · cases hs.symm.trans hg
      exact ht

end

/-- Where no result is valid the host's turn does not read DOUT (R226). -/
theorem hostTurn_invalid_congr (dout dout' : Reg 64) (samples : List (Reg 64)) (script : List HostAct) :
    hostTurn false dout samples script = hostTurn false dout' samples script := by
  cases script with
  | nil => rfl
  | cons a rest => cases a <;> rfl

/-- States that agree where the registers may be used show the host the same. -/
theorem SameWhereUsed.turn_eq {s t : State} (h : SameWhereUsed s t) :
    hostTurn s.showsResult s.dout s.samples s.script =
      hostTurn t.showsResult t.dout t.samples t.script := by
  have shown : s.showsResult = t.showsResult := by rw [State.showsResult, h.ctl_eq]; rfl
  rw [← shown, h.samples_eq, h.script_eq]
  cases valid : s.showsResult with
  | false => exact hostTurn_invalid_congr _ _ _ _
  | true =>
    cases hs : s.ctl with
    | none => simp [State.showsResult, hs] at valid
    | some ctl => rw [h.dout_eq ctl hs ((showsResult_of_ctl hs).symm.trans valid)]

/-- Where the control registers hold `ctl`, agreement is a matter of the flags of `ctl`. -/
theorem sameWhereUsed_of_ctl {s t : State} {ctl : Control} (hs : s.ctl = some ctl)
    (ht : t.ctl = some ctl) (resp_eq : s.resp = t.resp) (script_eq : s.script = t.script)
    (samples_eq : s.samples = t.samples) (key_eq : ctl.keyValid = true → s.key = t.key)
    (block_eq : ctl.busy = true → s.l = t.l ∧ s.r = t.r ∧ s.c = t.c ∧ s.d = t.d)
    (dout_eq : ctl.doutValid = true → s.dout = t.dout) : SameWhereUsed s t where
  ctl_eq := hs.trans ht.symm
  resp_eq := resp_eq
  script_eq := script_eq
  samples_eq := samples_eq
  key_eq := by simpa [hs] using key_eq
  block_eq := by simpa [hs] using block_eq
  dout_eq := by simpa [hs] using dout_eq

/-- Agreement where the registers may be used is kept: what an operation writes comes from registers that the
flags vouch for, or its own flag is 0 afterwards (R220). -/
theorem stepCongruence_sameWhereUsed : StepCongruence SameWhereUsed where
  ctl_eq h := h.ctl_eq
  turn_eq h := h.turn_eq
  afterTurn h turn := { h with script_eq := rfl, samples_eq := rfl }
  respond h x := { h with resp_eq := rfl }
  resetStep h v :=
    sameWhereUsed_of_ctl rfl rfl rfl h.script_eq h.samples_eq nofun nofun nofun
  loadKey {s t ctl} h hs key :=
    sameWhereUsed_of_ctl rfl rfl h.resp_eq h.script_eq h.samples_eq (fun _ => rfl)
      (h.block_eq ctl hs) (h.dout_eq ctl hs)
  accept h hs hkey mode block := by
    have sameKey := h.key_eq _ hs hkey
    exact sameWhereUsed_of_ctl rfl rfl h.resp_eq h.script_eq h.samples_eq (fun _ => sameKey)
      (fun _ => by simp [sameKey]) nofun
  roundStep {s t ctl} h hs hb := by
    obtain ⟨hl, hr, hc, hd⟩ := h.block_eq _ hs hb
    exact sameWhereUsed_of_ctl rfl rfl h.resp_eq h.script_eq h.samples_eq (h.key_eq ctl hs)
      (fun _ => by simp [hl, hr, hc, hd]) (h.dout_eq ctl hs)
  finalStep {s t ctl} h hs hb := by
    obtain ⟨hl, hr, -, -⟩ := h.block_eq _ hs hb
    exact sameWhereUsed_of_ctl rfl rfl h.resp_eq h.script_eq h.samples_eq (h.key_eq ctl hs) nofun
      (fun _ => by simp [hl, hr])

/-- Settles O54: no operation of a step reads a register whose flag does not vouch for it. -/
theorem unusedContentsNeverShow : Obligations.UnusedContentsNeverShow :=
  fun _ _ h => stepCongruence_sameWhereUsed.next_and_fault h

theorem lt_of_mem_PC1_L : ∀ j ∈ Tables.PC1_L, j < 64 := by decide

/-- PC1 reads a key through its other bits alone (R104). -/
theorem pc1_and_not_parityBits (key : Key) : pc1 (key &&& ~~~parityBits) = pc1 key := by
  refine permute_congr 56 Tables.PC1_L _ _ fun j named => ?_
  have kept : parityBits.getLsbD j = false := parityMask_getLsbD_of_mem_PC1_L j named
  rw [BitVec.getLsbD_and, BitVec.getLsbD_not, kept]
  simp [lt_of_mem_PC1_L j named]

/-- Keys that agree but for the parity bits, absent ones included, have the same permuted key. -/
theorem map_pc1_congr {α : Type} {k k' : Reg 64}
    (h : (k.map fun key => key &&& ~~~parityBits) = k'.map fun key => key &&& ~~~parityBits)
    (f : PermutedKey → α) : (k.map fun key => f (pc1 key)) = k'.map fun key => f (pc1 key) := by
  simpa [Function.comp_def, pc1_and_not_parityBits] using congrArg (Option.map fun key => f (pc1 key)) h

/-- The other state is the first one with another key. -/
theorem sameButParity_iff {s t : State} : SameButParity s t ↔ ∃ k, t = { s with key := k } ∧
    (s.key.map fun key => key &&& ~~~parityBits) = k.map fun key => key &&& ~~~parityBits := by
  constructor
  · exact fun h => ⟨t.key, h.rest_eq.symm, h.key_eq⟩
  · rintro ⟨k, rfl, h⟩
    exact ⟨h, rfl⟩

/-- Agreement but for the parity bits is kept: the accept step alone reads KEY, through PC1 (R104, R183). -/
theorem stepCongruence_sameButParity : StepCongruence SameButParity where
  ctl_eq h := by
    obtain ⟨k, rfl, -⟩ := sameButParity_iff.mp h
    rfl
  turn_eq h := by
    obtain ⟨k, rfl, -⟩ := sameButParity_iff.mp h
    rfl
  afterTurn h turn := ⟨h.key_eq, congrArg (State.afterTurn · turn) h.rest_eq⟩
  respond h x := ⟨h.key_eq, congrArg (State.respond · x) h.rest_eq⟩
  resetStep h v := ⟨rfl, (congrArg (resetStep v) h.rest_eq :)⟩
  loadKey {s t ctl} h hs key := by
    obtain ⟨k, rfl, -⟩ := sameButParity_iff.mp h
    exact ⟨rfl, rfl⟩
  accept {s t ctl} h hs hkey mode block := by
    obtain ⟨k, rfl, same⟩ := sameButParity_iff.mp h
    refine ⟨same, ?_⟩
    simp only [Machine.accept, map_pc1_congr same]
  roundStep {s t ctl} h hs hb := ⟨h.key_eq, congrArg (roundStep ctl) h.rest_eq⟩
  finalStep {s t ctl} h hs hb := ⟨h.key_eq, congrArg (finalStep ctl) h.rest_eq⟩

/-- Settles O55: the states after a step differ in KEY alone, which no output shows. -/
theorem keyParityNeverShows : Obligations.KeyParityNeverShows := by
  intro s s' h
  obtain ⟨next, fault⟩ := stepCongruence_sameButParity.next_and_fault h
  refine ⟨fun t hstep => ?_, fault⟩
  obtain ⟨t', hstep', after⟩ := next t hstep
  refine ⟨t', hstep', after, ?_⟩
  obtain ⟨k, rfl, -⟩ := sameButParity_iff.mp after
  exact ⟨rfl, rfl, rfl, rfl⟩

end Sys2Proof.Machine
end
